-- ==== Sys2Proof/Word.lean ====
section
/-! DEFINITION. The words of the Morcant 4170: octets, the 16-bit check code, and blocks of octets. -/

namespace Sys2Proof

/-- One octet of a frame, an ID field or a data field (00_scope.md, Conventions). -/
abbrev Octet := BitVec 8

/-- A two-octet field: a check code (R11), a recorded cylinder (R8), a block index of a data frame (10.8). -/
abbrev Word16 := BitVec 16

/-- The octets of one block. A block of the machine has 512 of them (00_scope.md section 3). -/
abbrev Block := List Octet

end Sys2Proof
end

