-- ==== Sys2Proof/Syntax.lean ====
section
/-! DEFINITION. The commands of the Morcant 4170: one constructor of `Instr` for each row of the opcode table, with the
operands a row's frame or event carries. A request row carries the octets of its good request frame (10.8); an event of a
spindle, a pack, a link or a timer carries what the cable or the link presents. -/

namespace Sys2Proof

/-- The four host ports A, B, C and D (00_scope.md section 3). -/
inductive Port where
  | A | B | C | D
  deriving DecidableEq, Repr, Inhabited

/-- The eight drive positions 0 to 7 (00_scope.md section 3). -/
abbrev Drive := Fin 8

/-- An address on a pack: cylinder, head and sector in that order (00_scope.md section 5). -/
structure Addr where
  cyl : Nat
  head : Nat
  sector : Nat
  deriving DecidableEq, Repr, Inhabited

/-- The eleven octets of an ID field, by the named fields of 1.10 (R8). -/
structure IdField where
  cyl : Word16
  head : Octet
  sector : Octet
  trackState : Octet
  linkCyl : Word16
  linkHead : Octet
  void : Octet
  check : Word16
  deriving DecidableEq, Repr, Inhabited

/-- The 514 octets of a data field: the block and its recorded check code (R7, 1.10). -/
structure DataField where
  block : Block
  check : Word16
  deriving DecidableEq, Repr, Inhabited

/-- One recorded sector: its ID field followed by its data field (R7). -/
structure Sector where
  id : IdField
  data : DataField
  deriving DecidableEq, Repr, Inhabited

/-- A disk pack: the sectors that differ from a factory-formatted pack, by block number (R2), numbers strictly rising.
Every sector that is not listed holds what `Machine.factorySector` gives for its number. -/
structure Pack where
  sectors : List (Nat × Sector)
  deriving DecidableEq, Repr, Inhabited

/-- What the heads deliver of the sector that a sector event ends: each field as it is recorded (`none`), or as the
surface disturbed it on this pass (`some`). -/
structure SurfaceRead where
  id : Option IdField
  data : Option DataField
  deriving DecidableEq, Repr, Inhabited

/-- Which pack the power-on sensing finds on a spindle: the one the machine last held there, none, or another. -/
inductive PackSense where
  | same
  | none
  | seated (pack : Pack)
  deriving DecidableEq, Repr, Inhabited

/-- The levels a spindle cable presents when the sequencer senses it (R18, R19). -/
structure SpindleSense where
  present : Bool
  pack : PackSense
  doorClosed : Bool
  writeProtect : Bool
  writeFault : Bool
  startStrap : Bool
  deriving DecidableEq, Repr, Inhabited

/-- Everything sensed at power-on: the eight spindle cables and the four hold lines (R18, R19, R177). -/
structure PowerOnSense where
  spindles : Vector SpindleSense 8
  hold : Vector Bool 4
  deriving DecidableEq, Repr, Inhabited

/-- A good request frame without its frame kind, kind code and frame check (10.8): the octets the director examines. -/
structure RequestFrame where
  tag : Octet
  flags : Octet
  unit : Octet
  priority : Octet
  params : List Octet
  deriving DecidableEq, Repr, Inhabited

/-- The commands of the block: one constructor for each row of the opcode table. -/
inductive Instr where
  | powerOn (sense : PowerOnSense)
  | readBlocks (p : Port) (f : RequestFrame)
  | writeBlocks (p : Port) (f : RequestFrame)
  | writeAndCheck (p : Port) (f : RequestFrame)
  | checkBlocks (p : Port) (f : RequestFrame)
  | position (p : Port) (f : RequestFrame)
  | recalibrate (p : Port) (f : RequestFrame)
  | spareTrack (p : Port) (f : RequestFrame)
  | returnAlternate (p : Port) (f : RequestFrame)
  | formatTrack (p : Port) (f : RequestFrame)
  | writeLabel (p : Port) (f : RequestFrame)
  | startDrive (p : Port) (f : RequestFrame)
  | stopDrive (p : Port) (f : RequestFrame)
  | clearFault (p : Port) (f : RequestFrame)
  | synchronize (p : Port) (f : RequestFrame)
  | reserve (p : Port) (f : RequestFrame)
  | release (p : Port) (f : RequestFrame)
  | seize (p : Port) (f : RequestFrame)
  | readStatus (p : Port) (f : RequestFrame)
  | readFaultRecord (p : Port) (f : RequestFrame)
  | readSpareMap (p : Port) (f : RequestFrame)
  | collectNotices (p : Port) (f : RequestFrame)
  | testNotice (p : Port) (f : RequestFrame)
  | cancel (p : Port) (f : RequestFrame)
  | setWindow (p : Port) (f : RequestFrame)
  | clearWindow (p : Port) (f : RequestFrame)
  | readWindows (p : Port) (f : RequestFrame)
  | setSettings (p : Port) (f : RequestFrame)
  | readSettings (p : Port) (f : RequestFrame)
  | readIdentity (p : Port) (f : RequestFrame)
  /-- A STRING RESET frame, with what the eight cables present at the reset's re-sensing of presence (R19, R43). -/
  | stringReset (p : Port) (f : RequestFrame) (cables : Vector SpindleSense 8)
  /-- A frame as received, octet by octet, that R178 discards (or that ends a write). -/
  | badFrame (p : Port) (octets : List Octet)
  /-- A good data-out frame: its tag octet, its block index and its block (10.8). -/
  | dataOut (p : Port) (tag : Octet) (index : Word16) (block : Block)
  | linkReset (p : Port)
  | linkSignalLoss (p : Port)
  | linkSignalAppears (p : Port)
  | holdLineChange (p : Port) (raised : Bool)
  | dataInSent (p : Port)
  | dataWantedSent (p : Port)
  | reportSent (p : Port)
  /-- Expiry of the data-wait timer of one half of the port's request with this tag (R105). -/
  | dataWaitExpiry (p : Port) (tag : Fin 16) (half : Fin 2)
  | readTimerExpiry (p : Port) (tag : Fin 16)
  | spindleSensed (d : Drive) (sense : SpindleSense)
  | atSpeed (d : Drive)
  | spinTimeout (d : Drive)
  | startGapExpiry
  | atRest (d : Drive)
  /-- The on-cylinder event, with the cylinder the arm has in fact come to rest on. -/
  | onCylinder (d : Drive) (settled : Nat)
  | seekTimerExpiry (d : Drive)
  | homeEvent (d : Drive)
  | recalibrateTimerExpiry (d : Drive)
  /-- The mark of sector `n` passes the heads; `read` is what the heads delivered of the sector that this mark ends. -/
  | sectorEvent (d : Drive) (n : Fin 24) (read : SurfaceRead)
  | doorOpened (d : Drive)
  | packRemoved (d : Drive)
  | doorClosed (d : Drive)
  | packSeated (d : Drive) (pack : Pack)
  | writeFaultRaised (d : Drive)
  | writeFaultDropped (d : Drive)
  | writeProtectChange (d : Drive) (isProtected : Bool)
  | powerLoss
  /-- A good request frame whose kind code the 4170 does not know. -/
  | kindInvalidRequest (p : Port) (code : Octet) (f : RequestFrame)
  deriving DecidableEq, Repr, Inhabited

end Sys2Proof
end

