-- ==== Sys2Proof/Decode.lean ====
section
/-! DEFINITION. Decoding a table word. The opcode table gives no row any bits: the 4170 takes frames and events and has no
instruction words, so no word spells a command. -/

namespace Sys2Proof

/-- The command a word spells by the table's bits: none, since no row of the table has bits. -/
def decodeTableWord (_nbits _w : Nat) : Option Instr := none

end Sys2Proof
end

