-- ==== Sys2Proof/Config.lean ====
section
/-! DEFINITION. What the part fixes (00_scope.md section 3, and the timer values of the chapters), and the values the
spec leaves open: each open value is a constant without a body, so that no proof can see which value it is. -/

namespace Sys2Proof.Config

/-- Blocks per segment, and so per round of a data request (R100, R101). -/
def roundBlocks : Nat := 12
/-- Sectors per track. -/
def sectors : Nat := 24
/-- Octets per block. -/
def blockOctets : Nat := 512
/-- The largest count of a data request. -/
def maxCount : Nat := 1024
/-- Entries of the request table, string-wide and of one port (R51). -/
def tableEntries : Nat := 32
def portEntries : Nat := 8
/-- Queued reports plus outstanding entries of a port (R180). -/
def reportRoom : Nat := 24
/-- The label cylinder, and the track number of the label track (R1, R2). -/
def labelCyl : Nat := 568
def labelTrack : Nat := 9088
/-- The first track of the spare cylinders: alternate index 0 (R2). -/
def firstSpare : Nat := 8960
/-- The number of alternate tracks. -/
def alternates : Nat := 128
/-- Home blocks, and all blocks of a pack (R2, R4). -/
def homeBlocks : Nat := 215040
def packBlocks : Nat := 218496

/-- One revolution and one sector, in microseconds (R7). -/
def revolution : Nat := 16800
def sectorTime : Nat := 700
/-- The spin timer, 45 s (R21). -/
def spinTime : Nat := 45000000
/-- The start-gap timer, 8 s (R21). -/
def gapTime : Nat := 8000000
/-- The seek timer, 80 ms (R27). -/
def seekTime : Nat := 80000
/-- The recalibrate timer, 500 ms (R28). -/
def recalTime : Nat := 500000

/-- Free value (log entry 4): the octets found in a data field whose recording was cut (R17). -/
opaque cutOctet : Nat → Nat → Octet
/-- Free value (log entry 4): the recorded check code of a cut field; it is made to disagree (R17). -/
opaque cutCode : Nat → Word16
/-- Free value (log entry 4): the ID field octets left by a cut in the ID field (R17). -/
opaque cutId : Nat → IdField
/-- Free value (log entry 4): whether a cut of a sector that records both fields fell in its ID field (R17). -/
opaque cutInId : Nat → Bool
/-- Free value (log entry 5): the failing address of a DATA_FRAME_ERROR when every block has arrived (R104). -/
opaque frameErrorAddr : Nat → Addr

end Sys2Proof.Config
end

