-- ==== Sys2Proof/Machine/State.lean ====
section
/-! DEFINITION. The state of the Morcant 4170 as plain data: every record, register, list, timer, marker and line the
spec gives its blocks, the packs on its spindles, the queue of waiting commands, and the machine right after reset. -/

namespace Sys2Proof.Machine

/-- Raised by no command: the spec gives every command an effect in every state, and a command that does not apply
(an event of a timer that is not running, a frame on an OFFLINE port) changes nothing. Kept as a closed type with the one
constructor a later rule of the spec would need; safe, since no step answers it. -/
inductive Fault where
  /-- Raised by nothing; safe. -/
  | none
  deriving DecidableEq, Repr, Inhabited

/-- Why a command has no meaning. -/
inductive Refusal where
  /-- Raised by an arm of `exec` for a command that has no meaning yet; safe. No arm of this model raises it. -/
  | notModelled (mnemonic : String)
  deriving DecidableEq, Repr, Inhabited

/-! ### Names of the spec -/

/-- The request kinds, in the order of the kind table of R46, and the internal label update (R75). -/
inductive Kind where
  | readBlocks | writeBlocks | writeAndCheck | checkBlocks | position | recalibrate
  | spareTrack | returnAlternate | formatTrack | writeLabel
  | startDrive | stopDrive | clearFault | synchronize
  | reserve | release | seize | readStatus | readFaultRecord | readSpareMap
  | collectNotices | testNotice | cancel | setWindow | clearWindow | readWindows
  | setSettings | readSettings | readIdentity | stringReset
  | labelUpdate
  deriving DecidableEq, Repr, Inhabited

/-- Drive states (R18). -/
inductive DriveState where
  | absent | stopped | starting | loading | ready | faulted | stopping
  deriving DecidableEq, Repr, Inhabited

/-- Motor states (R18). -/
inductive Motor where
  | off | accelerating | atSpeed | coasting
  deriving DecidableEq, Repr, Inhabited

/-- Arm states (R18, R26). -/
inductive ArmState where
  | idle | seeking | recalibrating | onCylinder
  deriving DecidableEq, Repr, Inhabited

/-- Fault kinds (R38). -/
inductive FaultKind where
  | seekTimeout | recalTimeout | writeFault | repeatedSeekCheck | spinTimeout
  deriving DecidableEq, Repr, Inhabited

/-- Attention reasons (R154). -/
inductive AttnReason where
  | packReady | portReset | stringReset | faultCleared
  deriving DecidableEq, Repr, Inhabited

/-- Origins of an assignment (R115). -/
inductive Origin where
  | factory | field | auto | adopted
  deriving DecidableEq, Repr, Inhabited

/-- Label states (R130). -/
inductive LabelState where
  | current | pending | stale
  deriving DecidableEq, Repr, Inhabited

/-- Outcome classes (R65). -/
inductive OutcomeClass where
  | done | refused | ended | notRun | abandoned | deferred
  deriving DecidableEq, Repr, Inhabited

/-- Details (R66). WRITE_PROTECTED is one name under REFUSED and under ENDED; `none` is NONE under DONE and the absent
detail of class DEFERRED. -/
inductive Detail where
  | none | recovered | trackSpared | earlyEnd | noMotion | notHeld
  | tagInUse | kindInvalid | unitUnknown | fieldInvalid | addressInvalid | extentInvalid
  | maintNotPermitted | tableFull | driveFaulted | driveNotReady | driveReserved | attentionPending
  | writeProtected | windowStop | windowOwned | trackInMap | faultNotCollected | notFaulted
  | tagUnknown | notCancellable
  | dataCheck | voidSector | headerCheck | seekCheck | writeCheck | compareMismatch
  | driveFault | spareExhausted | spareMapFault | dataLate | portOverrun | dataFrameError
  | chainBroken | cancelled | driveStopped
  deriving DecidableEq, Repr, Inhabited

/-- Notice kinds, in the order of R164's table. -/
inductive NoticeKind where
  | driveFree | attention | deferredError | driveFaulted | reservationLost
  | labelFault | sparesLow | windowMatch | linkOverrun | test
  deriving DecidableEq, Repr, Inhabited

/-- The states of a request's lifecycle (R53). -/
inductive ReqState where
  | waitingChain | queued | seeking | recalibrating | positioned | transferring
  | sparingWait | sparing | controlWait
  deriving DecidableEq, Repr, Inhabited

/-- The units of DATA_WAIT (R68). -/
inductive WaitUnit where
  | ms1 | ms10 | ms100 | s1
  deriving DecidableEq, Repr, Inhabited

/-- The nine settings, in the order of R68's table. -/
inductive Setting where
  | retryLimit | autoSpare | suspectThreshold | preferenceMisses | overduePasses
  | unitBase | earlyEndPermitted | noticeLineEnable | dataWait
  deriving DecidableEq, Repr, Inhabited

/-! ### Records -/

/-- The fault record (R38). -/
structure FaultRecord where
  kind : FaultKind
  curCyl : Nat
  tgtCyl : Nat
  owner : Option (Port × Nat)
  collected : Bool
  deriving DecidableEq, Repr, Inhabited

/-- An entry of the spare map (R115): a home track's assignment to an alternate index, or a retired index. -/
inductive MapEntry where
  | assign (home k : Nat) (origin : Origin)
  | retire (k : Nat)
  deriving DecidableEq, Repr, Inhabited

/-- The map record of one drive (R115). -/
structure MapRec where
  entries : List MapEntry
  labelState : LabelState
  generation : Nat
  armed : Bool
  deriving DecidableEq, Repr, Inhabited

/-- One entry of a suspect table (R147), its physical track by track number. -/
structure Suspect where
  track : Nat
  tally : Nat
  deriving DecidableEq, Repr, Inhabited

/-- The classes of data requests (R148). -/
inductive DataClass where
  | read | write
  deriving DecidableEq, Repr, Inhabited

/-- The recovered count of one port and drive, and the class held (R148). -/
structure RecCount where
  count : Nat
  cls : Option DataClass
  deriving DecidableEq, Repr, Inhabited

/-- A deferred record (R149). -/
structure DeferredRec where
  tag : Nat
  addr : Addr
  detail : Detail
  failures : Nat
  residual : Nat
  deriving DecidableEq, Repr, Inhabited

/-- The unit record of one drive (R154). -/
structure UnitRec where
  owner : Option Port
  wanted : Vector Bool 4
  attention : Vector (Option AttnReason) 4
  deriving DecidableEq, Repr, Inhabited

/-- The status record of READ STATUS (R42). -/
structure StatusRec where
  state : DriveState
  motor : Motor
  arm : ArmState
  curCyl : Nat
  tgtCyl : Nat
  packSeated : Bool
  doorClosed : Bool
  writeProtect : Bool
  writeFault : Bool
  startStrap : Bool
  inStartList : Bool
  serial : Option Nat
  labelState : LabelState
  generation : Nat
  mapEntries : Nat
  freeAlternates : Nat
  fault : Option (FaultKind × Bool)
  owner : Option Port
  attention : Option AttnReason
  queueLength : Nat
  recoveredCount : Nat
  deferred : Option DeferredRec
  deriving DecidableEq, Repr, Inhabited

/-- The spare-map list of READ SPARE MAP (R137). -/
structure SpareMapList where
  labelState : LabelState
  generation : Nat
  armed : Bool
  updateQueued : Bool
  entryCount : Nat
  freeAlternates : Nat
  entries : List MapEntry
  deriving DecidableEq, Repr, Inhabited

/-- The subject of a notice (R163). -/
inductive Subject where
  | none | drive (d : Drive) | window (w : Fin 4)
  deriving DecidableEq, Repr, Inhabited

/-- The first details of a notice (R163). -/
inductive NoticeDetails where
  | none
  | reason (r : AttnReason)
  | request (p : Port) (tag track : Nat)
  deriving DecidableEq, Repr, Inhabited

/-- A notice record (R163). -/
structure Notice where
  kind : NoticeKind
  subject : Subject
  occurrences : Nat
  details : NoticeDetails
  deriving DecidableEq, Repr, Inhabited

/-- Access, action and scope of a window (R169). -/
inductive Access where
  | write | any
  deriving DecidableEq, Repr, Inhabited
inductive Action where
  | stopBefore | reportAfter
  deriving DecidableEq, Repr, Inhabited
inductive Scope where
  | allPorts | otherPorts
  deriving DecidableEq, Repr, Inhabited

/-- The fields of a SET window (R169). -/
structure Window where
  owner : Port
  drive : Drive
  base : Nat
  length : Nat
  access : Access
  action : Action
  scope : Scope
  deriving DecidableEq, Repr, Inhabited

/-- One item of a settings list: the setting, its value (off 0, on 1), and the unit of DATA_WAIT (R69). -/
structure SettingItem where
  setting : Setting
  value : Nat
  unit : Option WaitUnit
  deriving DecidableEq, Repr, Inhabited

/-- The body of READ IDENTITY (R183). -/
structure Identity where
  model : Nat
  port : Port
  maintStrap : Bool
  baseStrap : Nat
  present : List Drive
  paths : Nat
  segments : Nat
  windows : Nat
  frameErrors : Nat
  unknownTags : Nat
  overruns : Nat
  deriving DecidableEq, Repr, Inhabited

/-- The body of a report (R65). -/
inductive Body where
  | none
  | status (r : StatusRec)
  | spareMap (r : SpareMapList)
  | faultRecord (r : FaultRecord)
  | notices (taken : List Notice) (left : Nat)
  | settings (items : List SettingItem)
  | windows (items : List (Nat × Option Window))
  | identity (r : Identity)
  | deferred (r : DeferredRec)
  deriving DecidableEq, Repr, Inhabited

/-- The qualifier of a report (R65). -/
inductive Qualifier where
  | none
  | driveState (s : DriveState)
  | port (p : Port)
  | reason (r : AttnReason)
  | window (w : Nat)
  deriving DecidableEq, Repr, Inhabited

/-- A report (R65). `kindCode` is the kind code as received. -/
structure Report where
  tag : Nat
  duplicate : Bool
  kindCode : Nat
  cls : OutcomeClass
  detail : Detail
  qualifier : Qualifier
  residual : Nat
  failing : Option Addr
  recoveredBlocks : Nat
  recoveredCount : Nat
  body : Body
  deriving DecidableEq, Repr, Inhabited

/-- A data-wanted frame given to the adapter (R103, R182): the request it is for, its tag, the round's first block and the
number of blocks in the round. -/
structure WantedFrame where
  rid : Nat
  tag : Nat
  first : Nat
  blocks : Nat
  deriving DecidableEq, Repr, Inhabited

/-- The frame a port is sending (R181). -/
inductive OutFrame where
  | wanted (w : WantedFrame)
  | report (r : Report)
  | dataIn (rid tag index : Nat) (block : Block)
  deriving DecidableEq, Repr, Inhabited

/-- The standing of the member an open-chain marker names (R54). -/
inductive Standing where
  | unended | endedDone | endedOther
  deriving DecidableEq, Repr, Inhabited

/-- An open-chain marker's contents: the last member (`none` when it never took an entry), its drive, its standing. -/
structure ChainMark where
  member : Option Nat
  drive : Drive
  standing : Standing
  deriving DecidableEq, Repr, Inhabited

/-- The four settings of a port (R68). -/
structure PortSettings where
  unitBase : Nat
  earlyEndPermitted : Bool
  noticeLineEnable : Bool
  waitFactor : Nat
  waitUnit : WaitUnit
  deriving DecidableEq, Repr, Inhabited

/-- The five settings of the string (R68). -/
structure StringSettings where
  retryLimit : Nat
  autoSpare : Bool
  suspectThreshold : Nat
  preferenceMisses : Nat
  overduePasses : Nat
  deriving DecidableEq, Repr, Inhabited

/-- The state of one port adapter (chapter 10), with the port's settings, open-chain marker and straps. -/
structure PortRec where
  online : Bool
  reports : List Report
  wanted : List WantedFrame
  sending : Option OutFrame
  notices : List Notice
  noticeLine : Bool
  hold : Bool
  frameErrors : Nat
  unknownTags : Nat
  overruns : Nat
  maintStrap : Bool
  baseStrap : Nat
  settings : PortSettings
  marker : Option ChainMark
  deriving DecidableEq, Repr, Inhabited

/-- The states of a half (R102, R103). -/
inductive HalfState where
  | empty | filling | draining | wanted | full
  deriving DecidableEq, Repr, Inhabited

/-- One half of a data request: its state, the round it serves, the blocks it holds in block order, whether the round has
been asked for in full (R182), and its data-wait timer (R105), as the microseconds left while it runs. -/
structure Half where
  state : HalfState
  round : Nat
  blocks : List Block
  asked : Bool
  timer : Option Nat
  deriving DecidableEq, Repr, Inhabited

/-- Where the block of the current leg stands: no path claimed, a path claimed and the block not begun, or the block's
sector passing under the heads (R94, R98). -/
inductive BlockPhase where
  | idle | claimed | passing
  deriving DecidableEq, Repr, Inhabited

/-- The steps of a sparing (R120 to R122) and of a return (R134). -/
inductive OpStep where
  | readSource | writeAlternate | checkAlternate | rewriteHome
  | readAlternate | writeHome | checkHome | clearAlternate
  deriving DecidableEq, Repr, Inhabited

/-- The operation record of a sparing (R119) or return (R134), with its progress: the leg's next sector and the further
revolutions of the read. -/
structure SpareOp where
  step : OpStep
  home : Nat
  source : Option Nat
  alt : Nat
  attempt : Nat
  origin : Origin
  pos : Nat
  revs : Nat
  deriving DecidableEq, Repr, Inhabited

/-- What a label write records (R131): serial, generation and entries. -/
structure LabelImage where
  serial : Nat
  generation : Nat
  entries : List MapEntry
  deriving DecidableEq, Repr, Inhabited

/-- A label write in progress (R131): the image, the step (0, 1, 2 record sectors 1, 2, 0; 3, 4, 5 read back sectors
0, 1, 2), the attempt and the sectors read back. -/
structure LabelJob where
  image : LabelImage
  step : Nat
  attempt : Nat
  back : List Block
  deriving DecidableEq, Repr, Inhabited

/-- A format in progress (R135): recording or checking, the next sector, the attempt. -/
structure FormatJob where
  checking : Bool
  pos : Nat
  attempt : Nat
  deriving DecidableEq, Repr, Inhabited

/-- An ending: class, detail and failing address (R63). -/
structure Ending where
  cls : OutcomeClass
  detail : Detail
  failing : Option Addr
  deriving DecidableEq, Repr, Inhabited

/-- A request record (R52). The label update of a drive is kept in the same form, outside the table, with kind
`labelUpdate`; no rule reads its port or tag. -/
structure Request where
  /-- Arrival order (R50): unique, and the name by which other records refer to the request. -/
  rid : Nat
  port : Port
  tag : Nat
  drive : Drive
  kind : Kind
  chain : Bool
  earlyEnd : Bool
  passWatch : Bool
  raw : Bool
  compare : Bool
  priority : Nat
  addr : Addr
  count : Nat
  /-- FORMAT TRACK's state is UNASSIGNED (R135). -/
  formatUnassigned : Bool
  /-- The extent (R5): first and last track number, or empty. -/
  extent : Option (Nat × Nat)
  earlyEffective : Bool
  state : ReqState
  nextBlock : Nat
  blocksDone : Nat
  passes : Nat
  misses : Nat
  segments : Option (Fin 8 × Fin 8)
  /-- The current half: half 0 when off, half 1 when on. -/
  curHalf : Bool
  half0 : Half
  half1 : Half
  /-- The blocks that have arrived from the host, in ascending order (R104). -/
  arrived : Nat
  retries : Nat
  seekChecks : Nat
  recovered : Nat
  /-- The blocks with failures handed to the recovery unit, each with whether any failure was no seek check (R146). -/
  failed : List (Nat × Bool)
  /-- The recovered blocks of a read that are not delivered yet (R146). -/
  marks : List Nat
  pred : Option Nat
  chainPrecedence : Bool
  cancelPending : Bool
  earlyEnded : Bool
  detached : Bool
  windowMatch : Option (Nat × Nat)
  failure : Option Ending
  /-- Whether the request has been arm owner (R175). -/
  reachedArm : Bool
  /-- The home track of the last sparing made for the request (R66, R67). -/
  spared : Option Nat
  /-- A port-side ending held until the block boundary or the operation's end (R104, R105). -/
  held : Option Ending
  phase : BlockPhase
  /-- WRITE AND CHECK: the check leg of the pair is next or under way, and the next block to record (R111). -/
  checking : Bool
  writePos : Nat
  /-- The home track on trial and its alternate index (R128). -/
  trial : Option (Nat × Nat)
  op : Option SpareOp
  label : Option LabelJob
  format : Option FormatJob
  /-- The read timer (R106). -/
  readTimer : Option Nat
  deriving DecidableEq, Repr, Inhabited

/-- What follows the home event of an owned recalibrate: RECALIBRATE ends (R88), the reseek to the block (R140), or a seek
made again to its target (R144). -/
inductive AfterHome where
  | finish | toBlock | toTarget (c : Nat)
  deriving DecidableEq, Repr, Inhabited

/-- The steps of a load (R24). -/
inductive LoadStep where
  | none | recalibrate | seek | read
  deriving DecidableEq, Repr, Inhabited

/-- A load in progress: its step, the label sector being read, whether it is passing, the counters of R145, the sectors
read so far. -/
structure LoadRec where
  step : LoadStep
  sector : Nat
  passing : Bool
  retries : Nat
  seekChecks : Nat
  blocks : List Block
  deriving DecidableEq, Repr, Inhabited

/-- Everything held for one drive: the sequencer record (R18), its timers, the load, the movement-retry mark (R144), the
unit record (R154), the map record (R115), the suspect table (R147), the label update (R75), the recovered counts (R148)
and deferred records (R149) of the four ports, and the spindle's own pack and arm. -/
structure DriveRec where
  state : DriveState
  motor : Motor
  arm : ArmState
  owner : Option Nat
  curCyl : Nat
  tgtCyl : Nat
  head : Nat
  sector : Nat
  elapsed : Nat
  packSeated : Bool
  doorClosed : Bool
  writeProtect : Bool
  writeFault : Bool
  serial : Option Nat
  startStrap : Bool
  fault : Option FaultRecord
  clearing : Bool
  spinTimer : Option Nat
  seekTimer : Option Nat
  recalTimer : Option Nat
  afterHome : AfterHome
  retryMark : Bool
  load : LoadRec
  /-- The pack left during the stop, so that rest discards serial and map (R34, R37). -/
  packLeft : Bool
  unit : UnitRec
  map : MapRec
  suspects : List Suspect
  labelUpdate : Option Request
  recCounts : Vector RecCount 4
  deferred : Vector (Option DeferredRec) 4
  /-- The pack on the spindle: what is recorded on its surface. -/
  pack : Option Pack
  /-- The cylinder the arm is in fact on. -/
  armAt : Nat
  deriving DecidableEq, Repr, Inhabited

/-- A data path (R92). -/
inductive PathState where
  | free | reserved (rid : Nat) | claimed (rid : Nat)
  deriving DecidableEq, Repr, Inhabited

/-- One block of the sparing buffer (R118): not read yet, read, or void. -/
inductive Slot where
  | unread | data (b : Block) | void
  deriving DecidableEq, Repr, Inhabited

/-- The sparing buffer and its waiter list (R118). -/
structure SpareBuffer where
  holder : Option Nat
  waiters : List Nat
  slots : List Slot
  deriving DecidableEq, Repr, Inhabited

/-- The whole machine. -/
structure State where
  /-- Power is applied (R17, R71). -/
  powered : Bool
  drives : Vector DriveRec 8
  ports : Vector PortRec 4
  table : List Request
  /-- The next place in the string-wide arrival order (R50). -/
  nextOrder : Nat
  startList : List Drive
  gateOpen : Bool
  gapTimer : Option Nat
  path0 : PathState
  path1 : PathState
  preference : List Nat
  segments : Vector (Option Nat) 8
  buffer : SpareBuffer
  windows : Vector (Option Window) 4
  settings : StringSettings
  /-- The model's own field: how many free values have been taken. -/
  freeCount : Nat
  /-- The commands that are waiting, first in, first out. -/
  pending : List Instr
  deriving DecidableEq, Repr, Inhabited

/-! ### Reset values -/

/-- The unit record at power-on (R154). -/
def UnitRec.initial : UnitRec :=
  { owner := none, wanted := Vector.replicate 4 false, attention := Vector.replicate 4 none }

/-- The map record at power-on and when discarded (R115). -/
def MapRec.initial : MapRec := { entries := [], labelState := .stale, generation := 0, armed := false }

/-- No load in progress. -/
def LoadRec.initial : LoadRec :=
  { step := .none, sector := 0, passing := false, retries := 0, seekChecks := 0, blocks := [] }

/-- A drive record at power-on with no spindle on its cable (R18, R19). -/
def DriveRec.initial : DriveRec :=
  { state := .absent, motor := .off, arm := .idle, owner := none, curCyl := 0, tgtCyl := 0, head := 0, sector := 0
    elapsed := 0, packSeated := false, doorClosed := false, writeProtect := false, writeFault := false, serial := none
    startStrap := false, fault := none, clearing := false, spinTimer := none, seekTimer := none, recalTimer := none
    afterHome := .finish, retryMark := false, load := LoadRec.initial, packLeft := false, unit := UnitRec.initial
    map := MapRec.initial, suspects := [], labelUpdate := none
    recCounts := Vector.replicate 4 { count := 0, cls := none }, deferred := Vector.replicate 4 none
    pack := none, armAt := 0 }

/-- The defaults of a port's settings, from its unit-base strap (R68). -/
def PortSettings.initial (baseStrap : Nat) : PortSettings :=
  { unitBase := baseStrap / 8 * 8, earlyEndPermitted := false, noticeLineEnable := true, waitFactor := 5
    waitUnit := .ms10 }

/-- The defaults of the string settings (R68). -/
def StringSettings.initial : StringSettings :=
  { retryLimit := 8, autoSpare := false, suspectThreshold := 4, preferenceMisses := 3, overduePasses := 12 }

/-- A port adapter at power-on, with its straps and the hold line as sensed (R177). -/
def PortRec.initial (maintStrap : Bool) (baseStrap : Nat) (hold : Bool) : PortRec :=
  { online := false, reports := [], wanted := [], sending := none, notices := [], noticeLine := false, hold := hold
    frameErrors := 0, unknownTags := 0, overruns := 0, maintStrap := maintStrap, baseStrap := baseStrap
    settings := PortSettings.initial baseStrap, marker := none }

/-- The sparing buffer when free (R118). -/
def SpareBuffer.initial : SpareBuffer := { holder := none, waiters := [], slots := List.replicate 24 .unread }

/-- The machine right after reset: power-on values, no spindle on any cable, every port OFFLINE. The straps, which the
installation sets, are log entry 1: maintenance strap on at port A alone, unit base 0 everywhere. -/
def State.reset : State :=
  { powered := true
    drives := Vector.replicate 8 DriveRec.initial
    ports := #v[PortRec.initial true 0 false, PortRec.initial false 0 false, PortRec.initial false 0 false,
      PortRec.initial false 0 false]
    table := [], nextOrder := 0, startList := [], gateOpen := true, gapTimer := none
    path0 := .free, path1 := .free, preference := [], segments := Vector.replicate 8 none
    buffer := SpareBuffer.initial, windows := Vector.replicate 4 none, settings := StringSettings.initial
    freeCount := 0, pending := [] }

end Sys2Proof.Machine
end

