-- ==== Sys2Proof/Machine/CheckCode.lean ====
section
/-! DEFINITION. Octets of numbers, and the check code of R11. -/

namespace Sys2Proof.Machine

/-- The octets of a number, most significant first, in `n` octets (1.10, 10.8). -/
def octetsOf : Nat → Nat → List Octet
  | 0, _ => []
  | n + 1, v => BitVec.ofNat 8 (v / 256 ^ n) :: octetsOf n v

/-- The number a run of octets gives, most significant first. -/
def numberOf (os : List Octet) : Nat := os.foldl (fun v o => v * 256 + o.toNat) 0

/-- Octet `i` of a list; 0 past its end. -/
def octetAt (os : List Octet) (i : Nat) : Octet := os.getD i 0

/-- One bit into the check register (R11): combined with stage 15, the register moves up, and stages 12, 5 and 0 are
inverted when the combined value is one. -/
def checkBit (r : Word16) (b : Bool) : Word16 :=
  if r.msb != b then (r <<< 1) ^^^ 0x1021#16 else r <<< 1

/-- One octet into the check register, most significant bit first (R11). -/
def checkOctet (r : Word16) (o : Octet) : Word16 :=
  [7, 6, 5, 4, 3, 2, 1, 0].foldl (fun r i => checkBit r (o.getLsbD i)) r

/-- The check code of a field (R11): every stage one at the start, the octets in order, no inversion of the result. -/
def checkCode (os : List Octet) : Word16 := os.foldl checkOctet 0xFFFF#16

/-- A check code as recorded: stages 15 to 8, then 7 to 0 (R11). -/
def checkOctets (c : Word16) : List Octet := [(c >>> 8).setWidth 8, c.setWidth 8]

end Sys2Proof.Machine
end

