-- ==== Sys2Proof/Machine/Geometry.lean ====
section
/-! DEFINITION. Track, block and alternate numbers (R2, R3), extents (R5), rounds (R101), and the access estimate's
quantities (R83, R85). -/

namespace Sys2Proof.Machine

/-- The track number of a cylinder and head (R2). -/
def trackOf (c h : Nat) : Nat := c * 16 + h
/-- The cylinder and head of a track number (R2). -/
def cylOf (t : Nat) : Nat := t / 16
def headOf (t : Nat) : Nat := t % 16
/-- The block number of an address (R2). -/
def blockOf (a : Addr) : Nat := trackOf a.cyl a.head * 24 + a.sector
/-- The address of a block number (R2). -/
def addrOf (b : Nat) : Addr := { cyl := cylOf (b / 24), head := headOf (b / 24), sector := b % 24 }
/-- Sector 0 of a track. -/
def sectorZero (t : Nat) : Addr := { cyl := cylOf t, head := headOf t, sector := 0 }
/-- The track number of alternate index `k`: cylinder 560 + k div 16, head k mod 16 (R2). -/
def altTrack (k : Nat) : Nat := trackOf (560 + k / 16) (k % 16)
/-- The alternate index of a track on the spare cylinders (R2). -/
def altIndex? (t : Nat) : Option Nat :=
  if 8960 ≤ t ∧ t < 9088 then some (t - 8960) else none
/-- The sector one before sector `s`: the claim sector of a block of sector `s` (R93). -/
def claimSector (s : Nat) : Nat := (s + 23) % 24

/-- The tracks of a data request's blocks (R5): from start block `b` and count `n`. -/
def dataExtent (b n : Nat) : Option (Nat × Nat) :=
  if n = 0 then none else some (b / 24, (b + n - 1) / 24)

/-- Two extents overlap when they share a track (R5). -/
def overlaps : Option (Nat × Nat) → Option (Nat × Nat) → Bool
  | some (a, b), some (c, d) => decide (a ≤ d) && decide (c ≤ b)
  | _, _ => false

/-- The lowest track that an extent and a window's span share (R173). -/
def firstShared (e : Option (Nat × Nat)) (base length : Nat) : Option Nat :=
  match e with
  | some (a, b) =>
    if a ≤ base + length - 1 ∧ base ≤ b then some (max a base) else none
  | none => none

/-- The last block of round `ρ` of a request of count `n` (R101). -/
def roundLast (n ρ : Nat) : Nat := min (12 * ρ + 11) (n - 1)
/-- The number of blocks in round `ρ` of a request of count `n` (R101). -/
def roundSize (n ρ : Nat) : Nat := min 12 (n - 12 * ρ)

/-- The seek-time profile (R83). -/
def seekProfile (d : Nat) : Nat :=
  if d = 0 then 0
  else if d ≤ 15 then 4000 + 600 * (d - 1)
  else if d ≤ 99 then 12600 + 120 * (d - 16)
  else 22600 + 40 * (d - 100)

/-- The distance between two cylinders (R83). -/
def distance (a b : Nat) : Nat := if a ≤ b then b - a else a - b

/-- The estimate of a request with a target sector (R85), from the angle. -/
def transferEstimate (angle cur target sector : Nat) : Nat :=
  let seek := seekProfile (distance cur target)
  let arrival := (angle + seek) % 16800
  let claim := claimSector sector * 700
  let wait := (claim + 16800 - arrival) % 16800
  seek + (if wait = 0 then 16800 else wait) + 700

/-- Insertion by a key, before the first entry with a larger key; entries with equal keys keep their order. -/
def insertBy {α : Type} (key : α → Nat) (x : α) : List α → List α
  | [] => [x]
  | y :: ys => if key x < key y then x :: y :: ys else y :: insertBy key x ys

/-- A list in rising order of a key, equal keys in their former order. -/
def sortBy {α : Type} (key : α → Nat) (xs : List α) : List α :=
  xs.foldl (fun acc x => insertBy key x acc) []

/-- The first entry with the least key. -/
def leastBy {α : Type} (key : α → Int) : List α → Option α
  | [] => none
  | x :: xs =>
    match leastBy key xs with
    | none => some x
    | some y => if key y < key x then some y else some x

/-- The eight drives and the four ports in order. -/
def allDrives : List Drive := [0, 1, 2, 3, 4, 5, 6, 7]
def allPorts : List Port := [.A, .B, .C, .D]

end Sys2Proof.Machine
end

