-- ==== Sys2Proof/Machine/Media.lean ====
section
/-! DEFINITION. The recording surface: what a pack holds (R7 to R10), the tests of an ID field (R13, R14), and what a cut
leaves (R17). -/

namespace Sys2Proof
open Machine

/-! ### ID fields -/

/-- Track states as recorded (1.10). -/
def Machine.stGood : Octet := 1
def Machine.stDefective : Octet := 2
def Machine.stAlternate : Octet := 3
def Machine.stUnassigned : Octet := 4

/-- Octets 0 to 8 of an ID field (1.10): what its ID check covers (R8). -/
def IdField.covered (f : IdField) : List Octet :=
  octetsOf 2 f.cyl.toNat ++ [f.head, f.sector, f.trackState] ++ octetsOf 2 f.linkCyl.toNat ++ [f.linkHead, f.void]

/-- The ID field with its ID check computed (R8). -/
def IdField.sealed (f : IdField) : IdField := { f with check := checkCode f.covered }

/-- A link as recorded: cylinder 65,535 and head 255 when there is none (R8). -/
def Machine.linkFields : Option Nat → Word16 × Octet
  | some t => (BitVec.ofNat 16 (cylOf t), BitVec.ofNat 8 (headOf t))
  | none => (0xFFFF#16, 0xFF#8)

/-- The ID field the 4170 records for a sector: track, sector, state, linked track, void flag (R8, R9). -/
def Machine.makeId (track sector : Nat) (st : Octet) (link : Option Nat) (void : Bool) : IdField :=
  IdField.sealed
    { cyl := BitVec.ofNat 16 (cylOf track), head := BitVec.ofNat 8 (headOf track), sector := BitVec.ofNat 8 sector
      trackState := st, linkCyl := (linkFields link).1, linkHead := (linkFields link).2
      void := if void then 1 else 0, check := 0 }

/-- Whether an ID field carries no link (R8). -/
def IdField.noLink (f : IdField) : Bool := f.linkCyl == 0xFFFF#16 && f.linkHead == 0xFF#8

/-- The track number an ID field's link names. -/
def IdField.linkTrack (f : IdField) : Nat := trackOf f.linkCyl.toNat f.linkHead.toNat

/-- A well-formed ID field (R8): the check agrees, the state is one of the four, the void flag is 0 or 1, and the link
stands exactly for DEFECTIVE and ALTERNATE and names cylinder 0 to 567 and head 0 to 15. -/
def IdField.wellFormed (f : IdField) : Bool :=
  f.check == checkCode f.covered
    && (f.trackState == stGood || f.trackState == stDefective || f.trackState == stAlternate
      || f.trackState == stUnassigned)
    && (f.void == 0 || f.void == 1)
    && (if f.trackState == stDefective || f.trackState == stAlternate then
          decide (f.linkCyl.toNat ≤ 567) && decide (f.linkHead.toNat ≤ 15)
        else f.noLink)

/-! ### Data fields -/

/-- 512 zero octets (R10). -/
def Machine.zeroBlock : Block := List.replicate 512 0

/-- The data field the 4170 records for a block: the check code is computed over its octets (R12). -/
def Machine.makeData (b : Block) : DataField := { block := b, check := checkCode b }

/-- The data field of 512 zero octets; 5,684 is their check code. -/
def Machine.zeroData : DataField := { block := zeroBlock, check := 5684#16 }

/-- A data field is read good when its check code agrees (R12). -/
def DataField.good (f : DataField) : Bool := f.check == checkCode f.block

/-! ### Packs -/

/-- The state of a track of a factory-formatted pack: UNASSIGNED on the spare cylinders, GOOD elsewhere (R9). -/
def Machine.factoryState (track : Nat) : Octet := if 8960 ≤ track ∧ track < 9088 then stUnassigned else stGood

/-- The sector of a factory-formatted pack: what an unlisted block number reads as. -/
def Machine.factorySector (n : Nat) : Sector :=
  { id := makeId (n / 24) (n % 24) (factoryState (n / 24)) none false, data := zeroData }

/-- The sector a list of sectors gives for a number; `factorySector` where it lists none. -/
def Machine.lookupSector (n : Nat) : List (Nat × Sector) → Sector
  | [] => factorySector n
  | (m, x) :: rest => if m = n then x else lookupSector n rest

/-- A list of sectors with one sector recorded, in canonical form. -/
def Machine.recordSector (n : Nat) (x : Sector) : List (Nat × Sector) → List (Nat × Sector)
  | [] => if x = factorySector n then [] else [(n, x)]
  | (m, y) :: rest =>
    if m < n then (m, y) :: recordSector n x rest
    else if m = n then (if x = factorySector n then rest else (n, x) :: rest)
    else if x = factorySector n then (m, y) :: rest
    else (n, x) :: (m, y) :: rest

/-- What a pack holds at a block number (R2, R7). -/
def Pack.read (p : Pack) (n : Nat) : Sector := lookupSector n p.sectors

/-- A pack with one sector recorded. -/
def Pack.write (p : Pack) (n : Nat) (x : Sector) : Pack := { sectors := recordSector n x p.sectors }

/-- Block numbers strictly rising from `lo` on, below the pack's end, and no sector equal to what an unlisted number
reads as. -/
def Machine.canonicalFrom (lo : Nat) : List (Nat × Sector) → Bool
  | [] => true
  | (n, x) :: rest =>
    decide (lo ≤ n) && decide (n < 218496) && decide (x ≠ factorySector n) && canonicalFrom (n + 1) rest

/-- The canonical form of a pack. -/
def Pack.wf (p : Pack) : Bool := canonicalFrom 0 p.sectors

/-! ### The tests of a sector -/

/-- The track a leg expects under its heads (R14): anything (RAW, or the source of a sparing), an unassigned home, the
alternate of a home, the label track, or a track of one given state without a link (R134, R135). -/
inductive Machine.Expect where
  | any | home | alternate (home : Nat) | label | plain (st : Octet)
  deriving DecidableEq, Repr, Inhabited

/-- The conditions of a sector (R13, R14, R10, R12, R111). A map disagreement carries the linked track when it is
adoptable in form. -/
inductive Machine.Condition where
  | header | seek | data | void | write
  | disagree (link : Option Nat)
  deriving DecidableEq, Repr, Inhabited

/-- The tests of track state and link (R14). -/
def Machine.stateCondition (f : IdField) : Expect → Option Condition
  | .any => none
  | .home =>
    if f.trackState = stGood then none
    else if f.trackState = stDefective then some (.disagree (some f.linkTrack))
    else some (.disagree none)
  | .alternate home =>
    if f.trackState = stAlternate ∧ f.linkTrack = home then none else some (.disagree none)
  | .label => if f.trackState = stGood then none else some .header
  | .plain st => if f.trackState = st then none else some .header

/-- The tests of R13 up to the track state and link, in order: integrity, cylinder, head and sector, state. -/
def Machine.idCondition (f : IdField) (cyl head sector : Nat) (e : Expect) : Option Condition :=
  if f.wellFormed = false then some .header
  else if f.cyl.toNat ≠ cyl then some .seek
  else if f.head.toNat ≠ head ∨ f.sector.toNat ≠ sector then some .header
  else stateCondition f e

/-- The condition of a sector that is read (R13, R10, R12): the ID tests, the void flag, the check code. -/
def Machine.readCondition (x : Sector) (cyl head sector : Nat) (e : Expect) : Option Condition :=
  match idCondition x.id cyl head sector e with
  | some c => some c
  | none => if x.id.void = 1 then some .void else if x.data.good then none else some .data

/-- The sector a data write leaves (R10): the data field from the block, and at a void sector the ID field anew with the
void flag 0 and every other field as it was read. -/
def Machine.overwrite (old found : Sector) (b : Block) : Sector :=
  { id := if found.id.void = 1 then IdField.sealed { found.id with void := 0 } else old.id
    data := makeData b }

/-! ### Cuts -/

/-- A check code that does not agree with the octets it stands after; which one is a free value (R17). -/
def Machine.wrongCheck (n : Nat) (right : Word16) : Word16 :=
  if Config.cutCode n = right then right ^^^ 1#16 else Config.cutCode n

/-- The data field of a sector whose recording was cut there (R17). -/
def Machine.cutData (n : Nat) : DataField :=
  let b := (List.range 512).map (Config.cutOctet n)
  { block := b, check := wrongCheck n (checkCode b) }

/-- The ID field of a sector whose recording was cut there (R17). -/
def Machine.cutIdField (n : Nat) : IdField :=
  { Config.cutId n with check := wrongCheck n (checkCode (Config.cutId n).covered) }

/-- What a cut leaves of the sector being recorded (R17): `both` when the leg records the ID field too, `new` the sector
it was recording. The data field is wrong, or the ID field is wrong and the data field is the former one. -/
def Machine.cutSector (n : Nat) (both : Bool) (old new : Sector) : Sector :=
  if both && Config.cutInId n then { id := cutIdField n, data := old.data }
  else { id := new.id, data := cutData n }

end Sys2Proof
end

