-- ==== Sys2Proof/Machine/SpareMap.lean ====
section
/-! DEFINITION. The spare map as data (R115 to R117), the suspect table (R147), and the label's recording (R15, R16). -/

namespace Sys2Proof.Machine

/-- The alternate index an entry names. -/
def MapEntry.index : MapEntry → Nat
  | .assign _ k _ => k
  | .retire k => k

/-- Map order (R115): assignments by home track, then retirements by index. -/
def MapEntry.key : MapEntry → Nat
  | .assign h _ _ => h
  | .retire k => 10000 + k

/-- The alternate index a home track is assigned to (R6). -/
def lookupHome (es : List MapEntry) (home : Nat) : Option Nat :=
  es.findSome? fun e => match e with
    | .assign h k _ => if h = home then some k else none
    | .retire _ => none

/-- Whether an assignment names index `k`. -/
def assignedIndex (es : List MapEntry) (k : Nat) : Bool :=
  es.any fun e => match e with
    | .assign _ j _ => j == k
    | .retire _ => false

/-- Whether a retirement names index `k`. -/
def retiredIndex (es : List MapEntry) (k : Nat) : Bool :=
  es.any fun e => match e with
    | .assign .. => false
    | .retire j => j == k

/-- Whether an index is free: named by no entry (R115). -/
def isFreeIndex (es : List MapEntry) (k : Nat) : Bool :=
  decide (k < 128) && !(es.any fun e => e.index == k)

/-- The free alternates (R115). -/
def freeIndices (es : List MapEntry) : List Nat := (List.range 128).filter (isFreeIndex es)

/-- An entry added in map order (R115). -/
def addEntry (es : List MapEntry) (e : MapEntry) : List MapEntry := insertBy MapEntry.key e es

/-- The assignment of a home removed. -/
def dropHome (es : List MapEntry) (home : Nat) : List MapEntry :=
  es.filter fun e => match e with
    | .assign h _ _ => h != home
    | .retire _ => true

/-- The retirement of an index removed. -/
def dropRetirement (es : List MapEntry) (k : Nat) : List MapEntry :=
  es.filter fun e => match e with
    | .assign .. => true
    | .retire j => j != k

/-- The alternate a sparing chooses for a home track (R117): the same head first, then the lowest free index. -/
def chooseAlternate (es : List MapEntry) (home : Nat) : Option Nat :=
  match [0, 16, 32, 48, 64, 80, 96, 112].find? fun j => isFreeIndex es (headOf home + j) with
  | some j => some (headOf home + j)
  | none => (List.range 128).find? (isFreeIndex es)

/-- The physical track of a home track (R6). -/
def physicalTrack (es : List MapEntry) (home : Nat) : Nat :=
  match lookupHome es home with
  | some k => altTrack k
  | none => home

/-! ### Suspect tables -/

/-- The tally of a track; 0 when it does not stand in the table (R147). -/
def tallyOf (ss : List Suspect) (track : Nat) : Nat :=
  match ss.find? (·.track = track) with
  | some e => e.tally
  | none => 0

/-- A tally raised (R147). -/
def raiseTally (ss : List Suspect) (track : Nat) : List Suspect :=
  if ss.any (·.track = track) then
    ss.map fun e => if e.track = track then { e with tally := min 15 (e.tally + 1) } else e
  else if ss.length < 16 then ss ++ [{ track := track, tally := 1 }]
  else
    match leastBy (fun e => (e.tally : Int)) ss with
    | some low => ss.erase low ++ [{ track := track, tally := 1 }]
    | none => [{ track := track, tally := 1 }]

/-- A track's entry removed (R123, R135). -/
def dropSuspect (ss : List Suspect) (track : Nat) : List Suspect := ss.filter (·.track != track)

/-! ### The label -/

/-- The kind-and-origin code (1.10). -/
def originCode : Origin → Nat
  | .factory => 1
  | .field => 2
  | .auto => 3
  | .adopted => 4

/-- The six octets of a label entry (1.10). -/
def entryOctets : MapEntry → List Octet
  | .assign h k o => octetsOf 2 (cylOf h) ++ octetsOf 1 (headOf h) ++ octetsOf 1 k ++ octetsOf 1 (originCode o) ++ [0]
  | .retire k => [0xFF, 0xFF, 0xFF] ++ octetsOf 1 k ++ [16, 0]

/-- Octets filled up with zeros to one block. -/
def padBlock (os : List Octet) : Block := os ++ List.replicate (512 - os.length) 0

/-- The label check word (R15): one run over sector 0 octets 0 to 6, sector 1 and sector 2. -/
def labelCheck (s0 s1 s2 : Block) : Word16 := checkCode (s0.take 7 ++ s1 ++ s2)

/-- The three label sectors of an image (R15, 1.10). -/
def labelBlocks (m : LabelImage) : Block × Block × Block :=
  let s1 := padBlock ((m.entries.take 85).flatMap entryOctets)
  let s2 := padBlock ((m.entries.drop 85).flatMap entryOctets)
  let head := octetsOf 4 m.serial ++ octetsOf 2 m.generation ++ octetsOf 1 m.entries.length
  (padBlock (head ++ checkOctets (labelCheck head s1 s2)), s1, s2)

/-- Entry `j` of the label sectors, as its six octets (R15). -/
def entryAt (s1 s2 : Block) (j : Nat) : List Octet :=
  if j < 85 then (s1.drop (6 * j)).take 6 else (s2.drop (6 * (j - 85))).take 6

/-- One entry read back (R16 items 4 to 7): none when it makes the label unreadable. -/
def parseEntry (os : List Octet) : Option MapEntry :=
  let cyl := numberOf (os.take 2)
  let head := (octetAt os 2).toNat
  let k := (octetAt os 3).toNat
  let assign := fun o => if cyl ≤ 559 ∧ head ≤ 15 ∧ k ≤ 127 then some (.assign (trackOf cyl head) k o) else none
  match (octetAt os 4).toNat with
  | 1 => assign .factory
  | 2 => assign .field
  | 3 => assign .auto
  | 4 => assign .adopted
  | 16 => if cyl = 65535 ∧ head = 255 ∧ k ≤ 127 then some (.retire k) else none
  | _ => none

/-- Entries read back one by one; none when any of them is unreadable. -/
def parseEntries (s1 s2 : Block) : Nat → Option (List MapEntry)
  | 0 => some []
  | n + 1 =>
    match parseEntries s1 s2 n, parseEntry (entryAt s1 s2 n) with
    | some es, some e => some (es ++ [e])
    | _, _ => none

/-- Whether two entries clash (R16 item 8): the same home, or the same index. -/
def MapEntry.clash : MapEntry → MapEntry → Bool
  | .assign h k _, .assign h' k' _ => h == h' || k == k'
  | e, e' => e.index == e'.index

/-- Whether no two entries clash (R16 item 8). -/
def noClash : List MapEntry → Bool
  | [] => true
  | e :: es => !(es.any e.clash) && noClash es

/-- The label as read from three good sectors (R16 items 2 to 8), its entries as recorded; none when unreadable. -/
def readLabel (s0 s1 s2 : Block) : Option LabelImage :=
  let count := (octetAt s0 6).toNat
  if numberOf ((s0.drop 7).take 2) ≠ (labelCheck s0 s1 s2).toNat ∨ 128 < count then none
  else
    match parseEntries s1 s2 count with
    | some es =>
      if noClash es then
        some { serial := numberOf (s0.take 4), generation := numberOf ((s0.drop 4).take 2), entries := es }
      else none
    | none => none

end Sys2Proof.Machine
end

