-- ==== Sys2Proof/Machine/Ops.lean ====
section
/-! DEFINITION. The named operations over the state: drives, ports, requests, packs, paths, segments. Every other file
reads and writes the state through these. -/

namespace Sys2Proof.Machine

/-! ### Ports and drives -/

/-- A port's place in a vector over the ports. -/
def portIndex : Port → Fin 4
  | .A => 0
  | .B => 1
  | .C => 2
  | .D => 3

/-- The record of a drive. -/
def State.drive (s : State) (d : Drive) : DriveRec := s.drives[d]

/-- A drive's record changed. -/
def State.onDrive (s : State) (d : Drive) (f : DriveRec → DriveRec) : State :=
  { s with drives := s.drives.set d.val (f (s.drive d)) d.isLt }

/-- The record of a port adapter. -/
def State.port (s : State) (p : Port) : PortRec := s.ports[portIndex p]

/-- A port's record changed. -/
def State.onPort (s : State) (p : Port) (f : PortRec → PortRec) : State :=
  { s with ports := s.ports.set (portIndex p).val (f (s.port p)) (portIndex p).isLt }

/-- An entry of a vector over the ports, read and replaced. -/
def ofPort {α : Type} (v : Vector α 4) (p : Port) : α := v[portIndex p]
def setOfPort {α : Type} (v : Vector α 4) (p : Port) (x : α) : Vector α 4 :=
  v.set (portIndex p).val x (portIndex p).isLt

/-- An operation made for every drive in ascending order, and for every port in the order A, B, C, D. -/
def forDrives (f : State → Drive → State) (s : State) : State := allDrives.foldl f s
def forPorts (f : State → Port → State) (s : State) : State := allPorts.foldl f s

/-! ### Kinds (R46) -/

/-- The kinds from their codes 1 to 30 (10.8). -/
def kindTable : List Kind :=
  [.readBlocks, .writeBlocks, .writeAndCheck, .checkBlocks, .position, .recalibrate, .spareTrack, .returnAlternate,
    .formatTrack, .writeLabel, .startDrive, .stopDrive, .clearFault, .synchronize, .reserve, .release, .seize,
    .readStatus, .readFaultRecord, .readSpareMap, .collectNotices, .testNotice, .cancel, .setWindow, .clearWindow,
    .readWindows, .setSettings, .readSettings, .readIdentity, .stringReset]

/-- The kind code of a kind (10.8): its place in R46's table, from 1. -/
def Kind.code (k : Kind) : Nat := kindTable.idxOf k + 1

def Kind.isData : Kind → Bool
  | .readBlocks | .writeBlocks | .writeAndCheck | .checkBlocks => true
  | _ => false

/-- The arm-using kinds, which enter a drive queue (R46). -/
def Kind.armUsing : Kind → Bool
  | .readBlocks | .writeBlocks | .writeAndCheck | .checkBlocks | .position | .recalibrate | .spareTrack
  | .returnAlternate | .formatTrack | .writeLabel | .labelUpdate => true
  | _ => false

def Kind.driveControl : Kind → Bool
  | .startDrive | .stopDrive | .clearFault | .synchronize => true
  | _ => false

/-- The table-entry kinds (R46). -/
def Kind.tableEntry (k : Kind) : Bool := k.armUsing || k.driveControl

/-- The drive-using kinds (R46). -/
def Kind.driveUsing (k : Kind) : Bool :=
  k.tableEntry || match k with
    | .reserve | .seize => true
    | _ => false

/-- The kinds that carry a unit (R46). -/
def Kind.carriesUnit (k : Kind) : Bool :=
  k.driveUsing || match k with
    | .release | .readStatus | .readFaultRecord | .readSpareMap | .setWindow => true
    | _ => false

/-- The maintenance kinds (R46). -/
def Kind.maintenance : Kind → Bool
  | .returnAlternate | .formatTrack | .seize | .stringReset => true
  | _ => false

/-- The write-class kinds (00_scope.md section 6). -/
def Kind.writeClass : Kind → Bool
  | .writeBlocks | .writeAndCheck | .spareTrack | .returnAlternate | .formatTrack | .writeLabel => true
  | _ => false

/-- The kinds that windows match (R173). -/
def Kind.windowed : Kind → Bool
  | .readBlocks | .checkBlocks | .writeBlocks | .writeAndCheck | .spareTrack | .returnAlternate | .formatTrack => true
  | _ => false

/-- A request that takes data from the host (R103). -/
def Request.takesData (r : Request) : Bool :=
  match r.kind with
  | .writeBlocks | .writeAndCheck => true
  | .checkBlocks => r.compare
  | _ => false

/-- The class of a data request (R148). -/
def Kind.dataClass : Kind → DataClass
  | .writeBlocks | .writeAndCheck => .write
  | _ => .read

/-! ### Requests -/

/-- A request by its arrival order: an entry of the table, or a drive's label update. -/
def State.request? (s : State) (rid : Nat) : Option Request :=
  match s.table.find? (·.rid = rid) with
  | some r => some r
  | none => allDrives.findSome? fun d =>
      match (s.drive d).labelUpdate with
      | some r => if r.rid = rid then some r else none
      | none => none

/-- A request's record replaced. -/
def State.putRequest (s : State) (r : Request) : State :=
  if r.kind = .labelUpdate then s.onDrive r.drive fun dr => { dr with labelUpdate := some r }
  else { s with table := s.table.map fun q => if q.rid = r.rid then r else q }

/-- A request's record changed, where the request stands. -/
def State.onRequest (s : State) (rid : Nat) (f : Request → Request) : State :=
  match s.request? rid with
  | some r => s.putRequest (f r)
  | none => s

/-- The arm owner of a drive. -/
def State.owner? (s : State) (d : Drive) : Option Request :=
  match (s.drive d).owner with
  | some rid => s.request? rid
  | none => none

/-- A request is outstanding while it holds an entry and is not detached (R51). -/
def Request.outstanding (r : Request) : Bool := !r.detached

/-- The outstanding request of a port that holds a tag (R51). -/
def State.tagged? (s : State) (p : Port) (tag : Nat) : Option Request :=
  s.table.find? fun r => decide (r.port = p) && decide (r.tag = tag) && r.outstanding

/-- The entries of a port. -/
def State.entriesOf (s : State) (p : Port) : List Request := s.table.filter (·.port = p)

/-- The count of a port's outstanding entries (R180). -/
def State.outstandingOf (s : State) (p : Port) : Nat := ((s.entriesOf p).filter (·.outstanding)).length

/-- The queue of a drive (R73): its QUEUED requests and its queued label update, in arrival order. The queue is no second
record: a request stands in it exactly while QUEUED. -/
def State.queue (s : State) (d : Drive) : List Request :=
  let q := s.table.filter fun r => decide (r.drive = d) && decide (r.state = .queued)
  match (s.drive d).labelUpdate with
  | some u => if u.state = .queued then insertBy (·.rid) u q else q
  | none => q

/-- The half a block lies in, by the current-half flag. -/
def Request.half (r : Request) (one : Bool) : Half := if one then r.half1 else r.half0
def Request.setHalf (r : Request) (one : Bool) (h : Half) : Request :=
  if one then { r with half1 := h } else { r with half0 := h }
def Request.current (r : Request) : Half := r.half r.curHalf

/-- An empty half. -/
def Half.empty : Half := { state := .empty, round := 0, blocks := [], asked := false, timer := none }

/-- Block 0's number of a data request (R3). -/
def Request.startBlock (r : Request) : Nat := blockOf r.addr
/-- The address of block `i`, as the request names it (R3). -/
def Request.blockAddr (r : Request) (i : Nat) : Addr := addrOf (r.startBlock + i)
/-- The track number of block `i`, as the request names it. -/
def Request.blockTrack (r : Request) (i : Nat) : Nat := (r.startBlock + i) / 24

/-- The track a track-upkeep request names. -/
def Request.namedTrack (r : Request) : Nat := trackOf r.addr.cyl r.addr.head

/-- The residual (R67). -/
def Request.residual (r : Request) : Nat := r.count - r.blocksDone

/-- The recovered count of a port for a drive (R148). -/
def State.recoveredCount (s : State) (p : Port) (d : Drive) : Nat := (ofPort (s.drive d).recCounts p).count

/-! ### Packs -/

/-- The block number under the heads of a drive: the arm's cylinder, the selected head, a sector. -/
def DriveRec.underHeads (dr : DriveRec) (sector : Nat) : Nat := trackOf dr.armAt dr.head * 24 + sector

/-- The sector recorded at a block number of a drive's pack; a drive without a pack reads as a fresh one. -/
def DriveRec.recorded (dr : DriveRec) (n : Nat) : Sector :=
  match dr.pack with
  | some p => p.read n
  | none => factorySector n

/-- What the heads deliver of the sector they pass. -/
def DriveRec.found (dr : DriveRec) (sector : Nat) (read : SurfaceRead) : Sector :=
  let x := dr.recorded (dr.underHeads sector)
  { id := read.id.getD x.id, data := read.data.getD x.data }

/-- A sector recorded on the pack; a number past the pack's end names no sector (R2). -/
def DriveRec.record (dr : DriveRec) (n : Nat) (x : Sector) : DriveRec :=
  { dr with pack := dr.pack.map fun p => if n < Config.packBlocks then p.write n x else p }

/-! ### Data paths (R92, R96) -/

/-- Whether a path carries or is held for a request. -/
def PathState.holds (ps : PathState) (rid : Nat) : Bool :=
  match ps with
  | .free => false
  | .reserved r => r == rid
  | .claimed r => r == rid

/-- The preference rule (R96) for path 0: it becomes RESERVED for the head of the preference list, or FREE. -/
def State.handOn0 (s : State) : State :=
  match s.preference with
  | r :: rest => { s with path0 := .reserved r, preference := rest }
  | [] => { s with path0 := .free }

/-- The preference rule (R96) for path 1. -/
def State.handOn1 (s : State) : State :=
  match s.preference with
  | r :: rest => { s with path1 := .reserved r, preference := rest }
  | [] => { s with path1 := .free }

/-- A request releases the path it holds, claimed or reserved, and the path is handed on (R96, R97). -/
def State.releasePath (s : State) (rid : Nat) : State :=
  let s := if s.path0.holds rid then s.handOn0 else s
  if s.path1.holds rid then s.handOn1 else s

/-- A request leaves the preference list, and a path held for it is handed on (R95, R97). -/
def State.leavePaths (s : State) (rid : Nat) : State :=
  State.releasePath { s with preference := s.preference.filter (· != rid) } rid

/-! ### Segments (R100) -/

/-- The free segments, lowest number first. -/
def State.freeSegments (s : State) : List (Fin 8) := allDrives.filter fun i => s.segments[i] == none

/-- A segment held by, or freed from, a request. -/
def State.setSegment (s : State) (i : Fin 8) (h : Option Nat) : State :=
  { s with segments := s.segments.set i.val h i.isLt }

/-- Every segment of a request freed. -/
def State.freeSegmentsOf (s : State) (rid : Nat) : State :=
  allDrives.foldl (fun s i => if s.segments[i] = some rid then s.setSegment i none else s) s

/-! ### The sparing buffer (R118) -/

/-- A request gives up the buffer if it holds it, and its place in the waiter list. -/
def State.leaveBuffer (s : State) (rid : Nat) : State :=
  { s with buffer := { s.buffer with
      holder := if s.buffer.holder = some rid then none else s.buffer.holder
      waiters := s.buffer.waiters.filter (· != rid) } }

/-! ### Timers -/

/-- The value of a DATA_WAIT unit in microseconds (R182). -/
def WaitUnit.micros : WaitUnit → Nat
  | .ms1 => 1000
  | .ms10 => 10000
  | .ms100 => 100000
  | .s1 => 1000000

/-- A data-wait timer started at the port's setting; a factor of 0 starts none (R182). -/
def PortSettings.waitTimer (c : PortSettings) : Option Nat :=
  if c.waitFactor = 0 then none else some (c.waitFactor * c.waitUnit.micros)

end Sys2Proof.Machine
end

