-- ==== Sys2Proof/Machine/Leg.lean ====
section
/-! DEFINITION. What the next or present block of a request is: its physical track and sector, what is expected there, and
what is recorded there (R6, R98, R99, R111, R119 to R122, R128, R131, R134, R135); and the cut of a recording leg (R17). -/

namespace Sys2Proof.Machine

/-- One block of a leg. -/
structure Leg where
  track : Nat
  sector : Nat
  /-- The leg records the ID field anew, and so tests no old one (R13). -/
  writesId : Bool
  /-- The leg records the data field. -/
  writesData : Bool
  expect : Expect
  deriving DecidableEq, Repr, Inhabited

/-- The data block a request works at: the next block, or the block to record of a WRITE AND CHECK pair (R111). -/
def Request.workBlock (r : Request) : Nat :=
  if r.kind = .writeAndCheck ∧ r.checking = false then r.writePos else r.nextBlock

/-- Whether the present leg of a data request is a write leg (R110, R111). -/
def Request.writeLeg (r : Request) : Bool :=
  match r.kind with
  | .writeBlocks => true
  | .writeAndCheck => !r.checking
  | _ => false

/-- The physical track of a data request's block `i`, and what is expected there (R6, R14, R128). -/
def dataTrack (es : List MapEntry) (r : Request) (i : Nat) : Nat × Expect :=
  let home := r.blockTrack i
  if r.raw then (home, .any)
  else
    match r.trial with
    | some (t, k) =>
      if t = home then (altTrack k, .alternate home)
      else (physicalTrack es home, if (lookupHome es home).isSome then .alternate home else .home)
    | none => (physicalTrack es home, if (lookupHome es home).isSome then .alternate home else .home)

/-- The block of a data request's leg. -/
def dataLeg (es : List MapEntry) (r : Request) : Leg :=
  let i := r.workBlock
  let t := dataTrack es r i
  { track := t.1, sector := (r.startBlock + i) % 24, writesId := false, writesData := r.writeLeg, expect := t.2 }

/-- The source track of an operation (R119): the home, or its present alternate. -/
def SpareOp.sourceTrack (op : SpareOp) : Nat :=
  match op.source with
  | some k => altTrack k
  | none => op.home

/-- The block of a sparing's or return's leg (R120 to R122, R134). -/
def opLeg (op : SpareOp) : Leg :=
  match op.step with
  | .readSource | .readAlternate =>
    { track := op.sourceTrack, sector := op.pos, writesId := false, writesData := false, expect := .any }
  | .writeAlternate =>
    { track := altTrack op.alt, sector := op.pos, writesId := true, writesData := true, expect := .any }
  | .checkAlternate =>
    { track := altTrack op.alt, sector := op.pos, writesId := false, writesData := false, expect := .alternate op.home }
  | .rewriteHome | .writeHome =>
    { track := op.home, sector := op.pos, writesId := true, writesData := true, expect := .any }
  | .checkHome =>
    { track := op.home, sector := op.pos, writesId := false, writesData := false, expect := .plain stGood }
  | .clearAlternate =>
    { track := op.sourceTrack, sector := op.pos, writesId := true, writesData := true, expect := .any }

/-- The label sector of a step of a label write (R131). -/
def labelSector (step : Nat) : Nat :=
  match step with
  | 0 => 1
  | 1 => 2
  | 2 => 0
  | 3 => 0
  | 4 => 1
  | _ => 2

/-- The block of a label write's leg (R131). -/
def labelLeg (j : LabelJob) : Leg :=
  { track := Config.labelTrack, sector := labelSector j.step, writesId := false, writesData := decide (j.step < 3)
    expect := .label }

/-- The state a FORMAT TRACK records (R135). -/
def Request.formatState (r : Request) : Octet := if r.formatUnassigned then stUnassigned else stGood

/-- The block of a format's leg (R135). -/
def formatLeg (r : Request) (f : FormatJob) : Leg :=
  { track := r.namedTrack, sector := f.pos, writesId := !f.checking, writesData := !f.checking
    expect := .plain r.formatState }

/-- The next or present block of a request's leg, through a spare map. -/
def legOf (es : List MapEntry) (r : Request) : Leg :=
  match r.op with
  | some op => opLeg op
  | none =>
    match r.label with
    | some j => labelLeg j
    | none =>
      match r.format with
      | some f => formatLeg r f
      | none => dataLeg es r

/-- The leg of a request through its drive's map. -/
def State.leg (s : State) (r : Request) : Leg := legOf (s.drive r.drive).map.entries r

/-- The block of a slot of the sparing buffer: zeros when void (R121). -/
def Slot.block : Slot → Block
  | .data b => b
  | _ => zeroBlock

/-- Whether a slot of the buffer is marked void (R118). -/
def Slot.isVoid : Slot → Bool
  | .data _ => false
  | _ => true

/-- The sector an operation's recording leg records (R121, R122, R134). -/
def opSector (buf : SpareBuffer) (op : SpareOp) : Sector :=
  let slot := buf.slots.getD op.pos .void
  match op.step with
  | .writeAlternate =>
    { id := makeId (altTrack op.alt) op.pos stAlternate (some op.home) slot.isVoid, data := makeData slot.block }
  | .rewriteHome =>
    { id := makeId op.home op.pos stDefective (some (altTrack op.alt)) false, data := zeroData }
  | .writeHome =>
    { id := makeId op.home op.pos stGood none slot.isVoid, data := makeData slot.block }
  | _ => { id := makeId op.sourceTrack op.pos stUnassigned none false, data := zeroData }

/-- The label sector a step records (R131). -/
def LabelJob.blockToWrite (j : LabelJob) : Block :=
  let bs := labelBlocks j.image
  match j.step with
  | 0 => bs.2.1
  | 1 => bs.2.2
  | _ => bs.1

/-- The block a data write records: from the current half (R12). -/
def Request.blockToWrite (r : Request) : Block := r.current.blocks.getD (r.workBlock % 12) zeroBlock

/-- The sector a recording leg leaves at its present block, from what stands there and what was read of it. -/
def State.written (s : State) (r : Request) (old found : Sector) : Sector :=
  match r.op with
  | some op => opSector s.buffer op
  | none =>
    match r.label with
    | some j => overwrite old found j.blockToWrite
    | none =>
      match r.format with
      | some f => { id := makeId r.namedTrack f.pos r.formatState none false, data := zeroData }
      | none => overwrite old found r.blockToWrite

/-- The condition of the present block of a recording leg (R13): none when the ID fields are recorded anew. -/
def writeCondition (dr : DriveRec) (l : Leg) (found : Sector) : Option Condition :=
  if l.writesId then none else idCondition found.id dr.curCyl dr.head l.sector l.expect

/-- A leg that is recording at drive `d` is cut (R17): the sector being recorded is left with a wrong check code. A sector
whose ID field fails its tests is not being recorded. -/
def State.cutLeg (s : State) (d : Drive) : State :=
  match s.owner? d with
  | none => s
  | some r =>
    let l := s.leg r
    let dr := s.drive d
    if r.phase = .passing ∧ l.writesData = true then
      let n := dr.underHeads l.sector
      let old := dr.recorded n
      match writeCondition dr l old with
      | some _ => s
      | none =>
        let x := cutSector s.freeCount (l.writesId || decide (old.id.void = 1)) old (s.written r old old)
        { s.onDrive d (·.record n x) with freeCount := s.freeCount + 1 }
    else s

end Sys2Proof.Machine
end

