-- ==== Sys2Proof/Machine/Flags.lean ====
section
/-! DEFINITION. The flags and counts of the block: notice lists and lines (R163 to R165), attention (R160), reservations
(R157 to R159, R162), link counts (R178), window matching (R173), suspect tallies and recovered counts (R146 to R148),
deferred records (R149), label and map changes (R130, R132). -/

namespace Sys2Proof.Machine

/-! ### Notices -/

/-- The notice line stands as the list and NOTICE_LINE_ENABLE stand (R165). -/
def PortRec.withLine (pr : PortRec) : PortRec :=
  { pr with noticeLine := !pr.notices.isEmpty && pr.settings.noticeLineEnable }

/-- A posting into a notice list (R163): a record of the kind and subject counts it, or a new one joins the tail. -/
def postInto (ns : List Notice) (k : NoticeKind) (sub : Subject) (det : NoticeDetails) : List Notice :=
  if ns.any fun n => n.kind = k ∧ n.subject = sub then
    ns.map fun n => if n.kind = k ∧ n.subject = sub then { n with occurrences := min 255 (n.occurrences + 1) } else n
  else ns ++ [{ kind := k, subject := sub, occurrences := 1, details := det }]

/-- A notice posted to a port (R163), with the line (R165). -/
def State.post (s : State) (p : Port) (k : NoticeKind) (sub : Subject) (det : NoticeDetails) : State :=
  s.onPort p fun pr => PortRec.withLine { pr with notices := postInto pr.notices k sub det }

/-- A notice with a drive as subject, posted to all four ports (R164). -/
def State.postAll (s : State) (k : NoticeKind) (d : Drive) : State :=
  forPorts (fun s p => s.post p k (.drive d) .none) s

/-! ### Attention and reservations -/

/-- Attention set for a port on a drive, with its notice (R160). -/
def State.setAttention (s : State) (d : Drive) (p : Port) (r : AttnReason) : State :=
  (s.onDrive d fun dr => { dr with unit := { dr.unit with attention := setOfPort dr.unit.attention p (some r) } }).post
    p .attention (.drive d) (.reason r)

/-- Attention cleared (R161). -/
def State.clearAttention (s : State) (d : Drive) (p : Port) : State :=
  s.onDrive d fun dr => { dr with unit := { dr.unit with attention := setOfPort dr.unit.attention p none } }

/-- DRIVE_FREE posted to every port in a drive's wanted set, in the order A, B, C, D, and the set emptied (R157). -/
def State.freeWanted (s : State) (d : Drive) : State :=
  let w := (s.drive d).unit.wanted
  let s := forPorts (fun s p => if ofPort w p then s.post p .driveFree (.drive d) .none else s) s
  s.onDrive d fun dr => { dr with unit := { dr.unit with wanted := Vector.replicate 4 false } }

/-- A drive's reservation ends without a notice to its owner (R157, R162). -/
def State.endReservation (s : State) (d : Drive) : State :=
  (s.onDrive d fun dr => { dr with unit := { dr.unit with owner := none } }).freeWanted d

/-- A drive's reservation is lost in a stop or a clearing to STOPPED (R159). -/
def State.loseReservation (s : State) (d : Drive) : State :=
  match (s.drive d).unit.owner with
  | some p => (s.post p .reservationLost (.drive d) .none).endReservation d
  | none => s

/-! ### Link counts -/

/-- The link counts saturate at 65,535 (R178). -/
def PortRec.countFrameError (pr : PortRec) : PortRec := { pr with frameErrors := min 65535 (pr.frameErrors + 1) }
def PortRec.countUnknownTag (pr : PortRec) : PortRec := { pr with unknownTags := min 65535 (pr.unknownTags + 1) }
def PortRec.countOverrun (pr : PortRec) : PortRec := { pr with overruns := min 65535 (pr.overruns + 1) }

/-! ### Windows -/

/-- The track at which a window matches a request, when it does (R173). -/
def Window.match (w : Window) (p : Port) (d : Drive) (k : Kind) (extent : Option (Nat × Nat)) : Option Nat :=
  if w.drive = d ∧ k.windowed = true ∧ (w.access = .any ∨ k.writeClass = true)
      ∧ (w.scope = .allPorts ∨ p ≠ w.owner) then
    firstShared extent w.base w.length
  else none

/-- The windows of an action that match a request, in number order, each with its matched track. -/
def State.matching (s : State) (a : Action) (p : Port) (d : Drive) (k : Kind) (extent : Option (Nat × Nat)) :
    List (Fin 4 × Window × Nat) :=
  ([0, 1, 2, 3] : List (Fin 4)).filterMap fun i =>
    match s.windows[i] with
    | some w =>
      if w.action = a then
        match w.match p d k extent with
        | some t => some (i, w, t)
        | none => none
      else none
    | none => none

/-- The report-after match of an ending (R175). -/
def State.reportAfter (s : State) (r : Request) : State :=
  if r.reachedArm then
    let ms := s.matching .reportAfter r.port r.drive r.kind r.extent
    let s := s.onRequest r.rid fun q =>
      { q with windowMatch := match ms with
          | [] => none
          | (i, _, t) :: _ => some (i.val, t) }
    ms.foldl (fun s m => s.post m.2.1.owner .windowMatch (.window m.1) (.request r.port r.tag m.2.2)) s
  else s

/-! ### Recovered counts and tallies -/

/-- One recovered block of a port for a drive (R148). -/
def State.raiseRecovered (s : State) (p : Port) (d : Drive) : State :=
  s.onDrive d fun dr =>
    let c := ofPort dr.recCounts p
    { dr with recCounts := setOfPort dr.recCounts p { c with count := min 255 (c.count + 1) } }

/-- The acceptance of a data request of a class (R148). -/
def State.acceptClass (s : State) (p : Port) (d : Drive) (c : DataClass) : State :=
  s.onDrive d fun dr =>
    let old := ofPort dr.recCounts p
    let count := match old.cls with
      | some c' => if c' = c then old.count else 0
      | none => old.count
    { dr with recCounts := setOfPort dr.recCounts p { count := count, cls := some c } }

/-- A track's tally raised in a drive's suspect table (R147). -/
def State.raiseSuspect (s : State) (d : Drive) (track : Nat) : State :=
  s.onDrive d fun dr => { dr with suspects := raiseTally dr.suspects track }

/-! ### Deferred records -/

/-- The failure of an early-ended write folded into the record of its port for its drive (R149). -/
def State.fold (s : State) (r : Request) (e : Ending) : State :=
  match ofPort (s.drive r.drive).deferred r.port with
  | none =>
    let made : DeferredRec :=
      { tag := r.tag, addr := e.failing.getD r.addr, detail := e.detail, failures := 1, residual := r.residual }
    (s.onDrive r.drive fun dr => { dr with deferred := setOfPort dr.deferred r.port (some made) }).post
      r.port .deferredError (.drive r.drive) .none
  | some x =>
    let y := { x with failures := min 255 (x.failures + 1), residual := min 65535 (x.residual + r.residual) }
    s.onDrive r.drive fun dr => { dr with deferred := setOfPort dr.deferred r.port (some y) }

/-- A deferred record cleared (R151). -/
def State.clearDeferred (s : State) (p : Port) (d : Drive) : State :=
  s.onDrive d fun dr => { dr with deferred := setOfPort dr.deferred p none }

/-! ### The spare map -/

/-- The spares-low check, made when armed (R132). -/
def State.checkSpares (s : State) (d : Drive) : State :=
  let m := (s.drive d).map
  if m.armed ∧ (freeIndices m.entries).length ≤ 8 then
    (s.postAll .sparesLow d).onDrive d fun dr => { dr with map := { dr.map with armed := false } }
  else s

/-- The drive's internal label update as it joins the queue (R75). -/
def newLabelUpdate (rid : Nat) (d : Drive) : Request :=
  { (default : Request) with
    rid := rid, drive := d, kind := .labelUpdate, priority := 3, state := .queued
    half0 := Half.empty, half1 := Half.empty }

/-- A label update queued for a drive, unless one is (R75, R130). -/
def State.queueLabelUpdate (s : State) (d : Drive) : State :=
  match (s.drive d).labelUpdate with
  | some _ => s
  | none =>
    { s.onDrive d fun dr => { dr with labelUpdate := some (newLabelUpdate s.nextOrder d) } with
      nextOrder := s.nextOrder + 1 }

/-- A map change (R130): the new entries, the label PENDING, a label update queued, the spares-low check (R132). -/
def State.changeMap (s : State) (d : Drive) (f : List MapEntry → List MapEntry) : State :=
  State.checkSpares
    (State.queueLabelUpdate
      (s.onDrive d fun dr => { dr with map := { dr.map with entries := f dr.map.entries, labelState := .pending } }) d) d

/-- A drive's map discarded, and its suspect table emptied (R115, R147). -/
def DriveRec.discardMap (dr : DriveRec) : DriveRec := { dr with map := MapRec.initial, suspects := [] }

end Sys2Proof.Machine
end

