-- ==== Sys2Proof/Machine/Ending.lean ====
section
/-! DEFINITION. How a request ends (R63 to R67), how it leaves the table, broken chains (R56), and the two fan-outs over a
drive's requests: the stop (R35) and the fault (R38). -/

namespace Sys2Proof.Machine

/-! ### Reports -/

/-- A report handed to a port adapter joins the tail of its report queue (R180). -/
def State.queueReport (s : State) (p : Port) (r : Report) : State :=
  s.onPort p fun pr => { pr with reports := pr.reports ++ [r] }

/-- The ending report of a table-entry request (R65). -/
def endingReport (s : State) (r : Request) (e : Ending) (body : Body) : Report :=
  { tag := r.tag, duplicate := false, kindCode := r.kind.code, cls := e.cls, detail := e.detail, qualifier := .none
    residual := if e.detail = .earlyEnd then 0 else r.residual, failing := e.failing, recoveredBlocks := r.recovered
    recoveredCount := if r.kind.isData then s.recoveredCount r.port r.drive else 0, body := body }

/-- The ending report queued at the request's port. -/
def State.reportEnding (s : State) (r : Request) (e : Ending) (body : Body) : State :=
  s.queueReport r.port (endingReport s r e body)

/-- Endings by name. -/
def Ending.make (c : OutcomeClass) (d : Detail) : Ending := { cls := c, detail := d, failing := none }
def Ending.at (c : OutcomeClass) (d : Detail) (a : Addr) : Ending := { cls := c, detail := d, failing := some a }
def Ending.cancelled : Ending := Ending.make .abandoned .cancelled

/-- The DONE ending a request has earned (R66): TRACK_SPARED, RECOVERED, NONE, the first that applies. -/
def Request.doneEnding (r : Request) : Ending :=
  match r.spared with
  | some t => Ending.at .done .trackSpared (sectorZero t)
  | none => if 0 < r.recovered then Ending.make .done .recovered else Ending.make .done .none

/-! ### Leaving the table -/

/-- The arm's owner leaves it: a stationary arm becomes IDLE, a movement runs on without an owner (R26, R29). The
movement-retry mark is turned off (R144). -/
def DriveRec.loseOwner (dr : DriveRec) : DriveRec :=
  { dr with
    owner := none, retryMark := false
    arm := match dr.arm with
      | .onCylinder => .idle
      | a => a }

/-- Step 4 of an ending (R63): paths, segments, buffer and arm returned, the entry freed; the failure an early-ended write
carries is folded in this event (R150). -/
def State.leaveTable (s : State) (rid : Nat) : State :=
  match s.request? rid with
  | none => s
  | some r =>
    let s := match r.failure with
      | some e => if r.earlyEnded then s.fold r e else s
      | none => s
    let s := ((s.leavePaths rid).freeSegmentsOf rid).leaveBuffer rid
    let s := if (s.drive r.drive).owner = some rid then s.onDrive r.drive DriveRec.loseOwner else s
    if r.kind = .labelUpdate then s.onDrive r.drive fun dr => { dr with labelUpdate := none }
    else { s with table := s.table.filter (·.rid != rid) }

/-- The marker that names an ended member takes its standing (R55, R56). -/
def State.markStanding (s : State) (p : Port) (rid : Nat) (st : Standing) : State :=
  s.onPort p fun pr =>
    { pr with marker := pr.marker.map fun m => if m.member = some rid then { m with standing := st } else m }

/-- The successor waiting behind a request (R54). -/
def State.successor? (s : State) (rid : Nat) : Option Request :=
  s.table.find? fun q => decide (q.state = .waitingChain) && decide (q.pred = some rid)

/-- Every successor waiting behind a broken member ends NOT_RUN, in chain order (R56). -/
def State.breakChain : Nat → State → Nat → State
  | 0, s, _ => s
  | n + 1, s, rid =>
    match s.successor? rid with
    | none => s
    | some y =>
      let s := s.reportEnding y (Ending.make .notRun .chainBroken) .none
      let s := (s.markStanding y.port y.rid .endedOther).leaveTable y.rid
      State.breakChain n s y.rid

/-- A request ends in a class other than DONE (R63, R56). -/
def State.endBroken (s : State) (r : Request) (e : Ending) (body : Body) : State :=
  let s := (s.reportEnding r e body).reportAfter r
  let s := (s.markStanding r.port r.rid .endedOther).breakChain s.table.length r.rid
  s.leaveTable r.rid

/-! ### Fan-outs -/

/-- The table entries of a drive that a fan-out reaches on its own, in arrival order: all but those waiting behind a
predecessor, which end with it (R57). -/
def State.fanOut (s : State) (d : Drive) : List Nat :=
  (s.table.filter fun r => decide (r.drive = d) && decide (r.state ≠ .waitingChain)).map (·.rid)

/-- The early-ended writes of a drive whose last block is not on the pack are folded with DRIVE_FAULT and leave
(R35 step 2, R38 step 3). -/
def State.foldEarly (s : State) (d : Drive) : State :=
  (s.fanOut d).foldl (fun s rid =>
    match s.request? rid with
    | some r =>
      if r.earlyEnded then
        (s.putRequest { r with failure := some (Ending.at .ended .driveFault (r.blockAddr r.nextBlock)) }).leaveTable rid
      else s
    | none => s) s

/-- One request met by a stop or fault (R35 step 3, R38 step 4): a detached entry leaves without a report, a
cancel-pending request ends ABANDONED CANCELLED, any other ends as the fan-out gives. -/
def State.fanEnd (s : State) (rid : Nat) (e : Ending) : State :=
  match s.request? rid with
  | none => s
  | some r =>
    if r.detached then s.leaveTable rid
    else if r.cancelPending then s.endBroken r Ending.cancelled .none
    else s.endBroken r e .none

/-- The drive's label update is dropped (R35 step 5, R38 step 5). -/
def State.dropLabelUpdate (s : State) (d : Drive) : State :=
  match (s.drive d).labelUpdate with
  | some u => s.leaveTable u.rid
  | none => s

/-- Every timer, movement and clearing of a drive stopped, its arm IDLE with no owner, its load cut (R35, R38). -/
def DriveRec.haltArm (dr : DriveRec) : DriveRec :=
  { dr with
    arm := .idle, owner := none, spinTimer := none, seekTimer := none, recalTimer := none, retryMark := false
    clearing := false, load := LoadRec.initial }

/-- The stop of a drive (R35); `except` is the STOP DRIVE or CLEAR FAULT that caused it. -/
def State.stopDrive (s : State) (d : Drive) (except : Option Nat) : State :=
  let s := (s.cutLeg d).onDrive d fun dr => { dr.haltArm with state := .stopping, motor := .coasting }
  let s := s.foldEarly d
  let s := ((s.fanOut d).filter fun rid => except != some rid).foldl
    (fun s rid => s.fanEnd rid (Ending.make .abandoned .driveStopped)) s
  (s.dropLabelUpdate d).loseReservation d

/-- The fault of a drive (R38); `owner` is named in the record, unless it is the label update (R75). -/
def State.faultDrive (s : State) (d : Drive) (k : FaultKind) (owner : Option Request) : State :=
  let dr := s.drive d
  let made : FaultRecord :=
    { kind := k, curCyl := dr.curCyl, tgtCyl := dr.tgtCyl, collected := false
      owner := match owner with
        | some r => if r.kind = .labelUpdate then none else some (r.port, r.tag)
        | none => none }
  let s := (s.cutLeg d).onDrive d fun dr =>
    { dr.haltArm with
      state := .faulted, fault := some made
      motor := if k = .spinTimeout then .coasting else dr.motor }
  let s := s.foldEarly d
  let s := ((s.fanOut d).filter fun rid =>
      match s.request? rid with
      | some r => r.kind != .synchronize
      | none => false).foldl
    (fun s rid => s.fanEnd rid (Ending.make .ended .driveFault)) s
  (s.dropLabelUpdate d).postAll .driveFaulted d

end Sys2Proof.Machine
end

