-- ==== Sys2Proof/Machine/Control.lean ====
section
/-! DEFINITION. Drive-control requests as they begin (R23, R36, R40, R152), and DONE endings with the release of chain
successors (R55, R63). -/

namespace Sys2Proof.Machine

/-- A drive joins the start list, once (R20). -/
def State.joinStartList (s : State) (d : Drive) : State :=
  if s.startList.contains d then s else { s with startList := s.startList ++ [d] }

/-- The recalibrate command (R28): target 0, the recalibrate timer, and a seek in progress replaced. -/
def DriveRec.recalibrate (dr : DriveRec) : DriveRec :=
  { dr with tgtCyl := 0, arm := .recalibrating, recalTimer := some Config.recalTime, seekTimer := none }

/-- START DRIVE as it begins (R23, R55). -/
def State.beginStart (s : State) (d : Drive) : State × Option Ending :=
  match (s.drive d).state with
  | .ready => (s, some (Ending.make .done .none))
  | .stopped | .stopping => (s.joinStartList d, none)
  | .faulted => (s, some (Ending.make .ended .driveFault))
  | .starting | .loading | .absent => (s, none)

/-- STOP DRIVE as it begins (R36, R55). -/
def State.beginStop (s : State) (rid : Nat) (d : Drive) : State × Option Ending :=
  match (s.drive d).state with
  | .ready => (s.stopDrive d (some rid), none)
  | .faulted => (s, some (Ending.make .ended .driveFault))
  | _ => (s, some (Ending.make .abandoned .driveStopped))

/-- The tests of CLEAR FAULT (R40). -/
def DriveRec.clearRefusal (dr : DriveRec) : Option Detail :=
  if dr.state = .faulted then
    match dr.fault with
    | some f => if f.collected then none else some .faultNotCollected
    | none => none
  else some .notFaulted

/-- CLEAR FAULT as it begins (R40, R55). -/
def State.beginClear (s : State) (rid : Nat) (d : Drive) : State × Option Ending :=
  match (s.drive d).clearRefusal with
  | some why => (s, some (Ending.make .refused why))
  | none =>
    match (s.drive d).motor with
    | .atSpeed =>
      if (s.drive d).clearing then (s, none)
      else (s.onDrive d fun dr => { dr.recalibrate with clearing := true }, none)
    | .coasting | .accelerating =>
      ((s.onDrive d fun dr => { dr with fault := none }).stopDrive d (some rid), none)
    | .off =>
      ((s.onDrive d fun dr => { dr with fault := none, state := .stopped }).loseReservation d,
        some (Ending.make .done .none))

/-- The awaited writes of a SYNCHRONIZE (R152). -/
def State.awaited (s : State) (r : Request) : List Request :=
  s.table.filter fun q => decide (q.port = r.port) && decide (q.drive = r.drive) && decide (q.rid < r.rid)
    && q.kind.writeClass && q.kind.isData && q.earlyEffective

/-- SYNCHRONIZE as it begins (R152). -/
def State.beginSync (s : State) (r : Request) : State × Option Ending :=
  if (s.awaited r).isEmpty then (s, some (Ending.make .done .none)) else (s, none)

/-- A drive-control request in CONTROL_WAIT begins; its ending, when it ends in this event. -/
def State.beginControl (s : State) (r : Request) : State × Option Ending :=
  match r.kind with
  | .startDrive => s.beginStart r.drive
  | .stopDrive => s.beginStop r.rid r.drive
  | .clearFault => s.beginClear r.rid r.drive
  | _ => s.beginSync r

/-- Steps 1 and 2 of a DONE ending, and the standing its open-chain marker takes (R63, R55). -/
def State.reportDone (s : State) (r : Request) (e : Ending) (body : Body) : State :=
  ((s.reportEnding r e body).reportAfter r).markStanding r.port r.rid .endedDone

/-- What an arm-using successor meets on a drive that is not READY (R73). -/
def DriveState.turnsAway (st : DriveState) : Option Ending :=
  match st with
  | .ready => none
  | .faulted => some (Ending.make .ended .driveFault)
  | _ => some (Ending.make .abandoned .driveStopped)

/-- The release of the successor waiting behind a request ended DONE (R55), and of those behind it when it ends DONE in
the same event. DEDUCED (log entry 42): a data successor of count 0 ends DONE NO_MOTION (R50, R55) whatever its drive's state,
before R73's endings of an arm-using successor. -/
def State.releaseChain : Nat → State → Nat → State
  | 0, s, _ => s
  | n + 1, s, rid =>
    match s.successor? rid with
    | none => s
    | some y =>
      if y.kind.isData ∧ y.count = 0 then
        let s := (s.reportDone y (Ending.make .done .noMotion) .none).leaveTable y.rid
        State.releaseChain n s y.rid
      else if y.kind.armUsing then
        match (s.drive y.drive).state.turnsAway with
        | none => s.putRequest { y with state := .queued, chainPrecedence := true }
        | some e => s.endBroken y e .none
      else
        let y := { y with state := .controlWait }
        match (s.putRequest y).beginControl y with
        | (s, none) => s
        | (s, some e) =>
          if e.cls = .done then
            State.releaseChain n ((s.reportDone y e .none).leaveTable y.rid) y.rid
          else s.endBroken y e .none

/-- The chain behind a request released, as far as it goes. -/
def State.releaseBehind (s : State) (rid : Nat) : State := State.releaseChain s.table.length s rid

/-- A request ends DONE (R63). -/
def State.endDone (s : State) (r : Request) (e : Ending) (body : Body) : State :=
  ((s.reportDone r e body).leaveTable r.rid).releaseBehind r.rid

/-- A request's ending, by what it is: the label update and a detached entry leave without a report; an early-ended write
leaves, a failure folded (R64, R150); DONE releases the chain and any other class breaks it (R55, R56). -/
def State.conclude (s : State) (rid : Nat) (e : Ending) : State :=
  match s.request? rid with
  | none => s
  | some r =>
    if r.earlyEnded then
      if e.cls = .done then s.leaveTable rid
      else (s.putRequest { r with failure := some e }).leaveTable rid
    else if r.kind = .labelUpdate ∨ r.detached = true then s.leaveTable rid
    else if e.cls = .done then s.endDone r e .none
    else s.endBroken r e .none

/-- A request ends DONE but for the release of its chain: as `State.conclude` ends it, its successor still waiting. -/
def State.concludeDone (s : State) (rid : Nat) : State :=
  match s.request? rid with
  | none => s
  | some r =>
    if r.earlyEnded = true ∨ r.kind = .labelUpdate ∨ r.detached = true then s.leaveTable rid
    else (s.reportDone r (Ending.make .done .none) .none).leaveTable rid

/-- Requests that one event ends DONE (R25, R37, R40, R153): all end, in the order given, and then their chains are
released (R55), so that no successor's start reaches one of them.

DESIGN CHOICE (log entry 43): the reports of successors released in the event stand behind those of all the requests
it ends so. -/
def State.endTogether (s : State) (rids : List Nat) : State :=
  rids.foldl State.releaseBehind (rids.foldl State.concludeDone s)

/-- An ending forced by what already pends on the request: a cancel, a detachment or a held port-side ending comes before
the ending given (R61, R105, R125). -/
def Request.pendingEnding (r : Request) : Option Ending :=
  if r.cancelPending then some Ending.cancelled
  else if r.detached && !r.earlyEnded then some Ending.cancelled
  else r.held

/-- The early report of a write (R64): steps 1 to 3 of its ending. -/
def State.earlyReport (s : State) (rid : Nat) : State :=
  match s.request? rid with
  | none => s
  | some r =>
    let s := (s.reportDone r (Ending.make .done .earlyEnd) .none).onRequest rid fun q => { q with earlyEnded := true }
    s.releaseBehind rid

end Sys2Proof.Machine
end

