-- ==== Sys2Proof/Machine/Movement.lean ====
section
/-! DEFINITION. The arm (R26 to R30): seeks and recalibrates for an owner, for a load and for a clearing, and their ends by
event and by timer, with the movement retry of R144. -/

namespace Sys2Proof.Machine

/-- A request's state while it is arm owner, unless an operation holds it in SPARING (R93, R119). -/
def Request.inState (r : Request) (st : ReqState) : Request :=
  if r.op.isSome then r else { r with state := st }

/-- The arm owner is on cylinder (R27): the movement-retry mark goes off (R144), POSITION ends (R87), any other request is
POSITIONED. -/
def State.arrive (s : State) (d : Drive) (rid : Nat) : State :=
  let s := s.onDrive d fun dr => { dr with arm := .onCylinder, retryMark := false }
  match s.request? rid with
  | none => s
  | some r =>
    if r.kind = .position then s.conclude rid (Ending.make .done .none)
    else s.putRequest (r.inState .positioned)

/-- A seek commanded for the arm owner (R27). -/
def State.seekTo (s : State) (d : Drive) (rid c : Nat) : State :=
  if (s.drive d).curCyl = c then s.arrive d rid
  else
    let s := (s.leavePaths rid).onDrive d fun dr =>
      { dr with tgtCyl := c, arm := .seeking, seekTimer := some Config.seekTime }
    s.onRequest rid (·.inState .seeking)

/-- A recalibrate commanded for the arm owner (R28), with what follows its home event. -/
def State.recalibrateFor (s : State) (d : Drive) (rid : Nat) (after : AfterHome) : State :=
  let s := (s.leavePaths rid).onDrive d fun dr => { dr.recalibrate with afterHome := after }
  s.onRequest rid (·.inState .recalibrating)

/-- The seek to the cylinder of a request's next block, taken through the map (R94, R99, R140). -/
def State.aim (s : State) (rid : Nat) : State :=
  match s.request? rid with
  | none => s
  | some r => s.seekTo r.drive rid (cylOf (s.leg r).track)

/-- A seek commanded for a load (R27). -/
def State.loadSeek (s : State) (d : Drive) (c : Nat) : State :=
  if (s.drive d).curCyl = c then s.onDrive d fun dr => { dr with arm := .idle, head := 0, load := { dr.load with step := .read } }
  else s.onDrive d fun dr =>
    { dr with tgtCyl := c, arm := .seeking, seekTimer := some Config.seekTime, head := 0
              load := { dr.load with step := .seek } }

/-- A load begins at step 1, its counters at 0 (R24, R145). -/
def State.beginLoad (s : State) (d : Drive) : State :=
  s.onDrive d fun dr =>
    { dr.recalibrate with state := .loading, owner := none, load := { LoadRec.initial with step := .recalibrate } }

/-- The requests of a drive that wait, cancel pending, for a movement to end (R60). -/
def State.cancelled (s : State) (d : Drive) : List Nat :=
  (s.table.filter fun r => decide (r.drive = d) && r.cancelPending
    && (decide (r.state = .seeking) || decide (r.state = .recalibrating))).map (·.rid)

/-- The cancel-pending requests of a finished movement end ABANDONED CANCELLED (R60). -/
def State.endCancelled (s : State) (d : Drive) : State :=
  (s.cancelled d).foldl (fun s rid => s.conclude rid Ending.cancelled) s

/-- The on-cylinder event, the arm in fact on cylinder `settled` (R27, R29). -/
def State.onCylinderEvent (s : State) (d : Drive) (settled : Nat) : State :=
  let s := s.onDrive d fun dr => { dr with seekTimer := none, curCyl := dr.tgtCyl, armAt := settled }
  if (s.drive d).state = .loading then
    s.onDrive d fun dr => { dr with arm := .idle, load := { dr.load with step := .read } }
  else
    match (s.drive d).owner with
    | some rid => s.arrive d rid
    | none => (s.onDrive d fun dr => { dr with arm := .idle }).endCancelled d

/-- The CLEAR FAULT requests of a drive's clearing (R40). -/
def State.clearers (s : State) (d : Drive) : List Request :=
  s.table.filter fun r => decide (r.drive = d) && decide (r.kind = .clearFault) && decide (r.state = .controlWait)

/-- A clearing ends with the home event (R40): its requests all end DONE before a chain behind one goes on (log entry 43). -/
def State.clearingDone (s : State) (d : Drive) : State :=
  let ending := s.clearers d
  let s := s.onDrive d fun dr => { dr with fault := none, state := .ready, arm := .idle, clearing := false }
  let s := forPorts (fun s p =>
    if ending.any (·.port = p) then s else s.setAttention d p .faultCleared) s
  s.endTogether (ending.map (·.rid))

/-- The home event (R28, R29, R40). -/
def State.homeEvent (s : State) (d : Drive) : State :=
  let s := s.onDrive d fun dr => { dr with recalTimer := none, curCyl := 0, armAt := 0 }
  if (s.drive d).state = .loading then s.loadSeek d Config.labelCyl
  else if (s.drive d).clearing then s.clearingDone d
  else
    match (s.drive d).owner with
    | none => (s.onDrive d fun dr => { dr with arm := .idle }).endCancelled d
    | some rid =>
      match (s.drive d).afterHome with
      | .finish =>
        (s.onDrive d fun dr => { dr with arm := .onCylinder, retryMark := false }).conclude rid
          (Ending.make .done .none)
      | .toBlock => (s.onDrive d fun dr => { dr with arm := .onCylinder }).aim rid
      | .toTarget c => (s.onDrive d fun dr => { dr with arm := .onCylinder }).seekTo d rid c

/-- A movement of an owner fails by timeout (R144): retried once through a recalibrate, then the drive's fault. -/
def State.movementFails (s : State) (d : Drive) (rid : Nat) (k : FaultKind) (after : AfterHome) : State :=
  if (s.drive d).retryMark then s.faultDrive d k (s.request? rid)
  else (s.onDrive d fun dr => { dr with retryMark := true }).recalibrateFor d rid after

/-- Expiry of the seek timer (R27, R29, R144). -/
def State.seekExpiry (s : State) (d : Drive) : State :=
  match (s.drive d).owner with
  | some rid => s.movementFails d rid .seekTimeout (.toTarget (s.drive d).tgtCyl)
  | none => (s.endCancelled d).faultDrive d .seekTimeout none

/-- A clearing recalibrate fails (R40). -/
def State.clearingFails (s : State) (d : Drive) : State :=
  let ending := s.clearers d
  let s := s.onDrive d fun dr =>
    { dr with
      recalTimer := none, arm := .idle, clearing := false
      fault := some { kind := .recalTimeout, curCyl := dr.curCyl, tgtCyl := 0, owner := none, collected := false } }
  let s := ending.foldl (fun s r => s.conclude r.rid (Ending.make .ended .driveFault)) s
  s.postAll .driveFaulted d

/-- Expiry of the recalibrate timer (R28, R29, R40, R144). -/
def State.recalibrateExpiry (s : State) (d : Drive) : State :=
  if (s.drive d).clearing then s.clearingFails d
  else
    match (s.drive d).owner with
    | some rid => s.movementFails d rid .recalTimeout (s.drive d).afterHome
    | none => (s.endCancelled d).faultDrive d .recalTimeout none

end Sys2Proof.Machine
end

