-- ==== Sys2Proof/Machine/Halves.lean ====
section
/-! DEFINITION. Rounds and halves (R101 to R103), the read timer (R106), and data-wanted frames given and withdrawn
(R103, R181). -/

namespace Sys2Proof.Machine

/-- The round the current half serves. -/
def Request.round (r : Request) : Nat := r.current.round

/-- A data-wanted frame given to the adapter for a round (R103, R182). -/
def State.giveWanted (s : State) (r : Request) (ρ : Nat) : State :=
  s.onPort r.port fun pr =>
    { pr with wanted := pr.wanted ++ [{ rid := r.rid, tag := r.tag, first := 12 * ρ, blocks := roundSize r.count ρ }] }

/-- A half asked for a round: WANTED, nothing arrived, not yet asked for in full (R103, R182). -/
def Half.wanting (ρ : Nat) : Half := { state := .wanted, round := ρ, blocks := [], asked := false, timer := none }

/-- Whether the disk side of a read is held up by its port side (R106). -/
def Request.heldUp (r : Request) : Bool :=
  decide (r.kind = .readBlocks)
    && ((decide (r.half0.state = .draining) && decide (r.half1.state = .draining))
      || (decide (r.nextBlock = r.count) && decide (r.blocksDone < r.count)))

/-- The read timer as a change of the request leaves it (R106): started when a case begins, stopped when neither holds. -/
def Request.retime (before after : Request) (wait : Option Nat) : Request :=
  if after.heldUp = false ∨ after.detached = true then { after with readTimer := none }
  else if before.heldUp then after
  else { after with readTimer := wait }

/-- A data request's record replaced, its read timer kept. -/
def State.putData (s : State) (before after : Request) : State :=
  s.putRequest (before.retime after (s.port before.port).settings.waitTimer)

/-- Whether the current half is ready for the disk side (R102, R103, R112). -/
def Request.ready (r : Request) : Bool :=
  if r.takesData then decide (r.current.state = .full)
  else decide (r.current.state = .empty) || decide (r.current.state = .filling)

/-- A read or check begins to use an EMPTY current half: it becomes FILLING (R102, R112). -/
def Request.filling (r : Request) : Request :=
  if r.takesData then r
  else if r.current.state = .empty then
    r.setHalf r.curHalf { r.current with state := .filling, blocks := [] }
  else r

/-- What a completed half becomes (R102, R103, R112), for a round with `next` two beyond it or none. -/
def Request.spent (r : Request) : Half :=
  if r.takesData then
    if 12 * (r.round + 2) < r.count then Half.wanting (r.round + 2) else { Half.empty with round := r.round }
  else if r.kind = .readBlocks ∧ r.blocksDone < r.nextBlock then { r.current with state := .draining }
  else { Half.empty with round := r.round }

/-- The toggle at a completed round with blocks remaining (R101): the completed half takes its port-side state, the other
becomes current and serves the next round, DRAINING though it may be (R102, R107, R109: the slip). -/
def Request.toggle (r : Request) : Request :=
  let ρ := r.round
  let r' := r.setHalf r.curHalf r.spent
  let r' := { r' with curHalf := !r.curHalf }
  let r' := if r'.takesData then r'
    else r'.setHalf r'.curHalf { r'.current with round := ρ + 1 }
  r'.filling

/-- Whether the disk side has just completed the current round with blocks remaining (R101). -/
def Request.roundComplete (r : Request) : Bool :=
  decide (r.nextBlock = 12 * (r.round + 1)) && decide (r.nextBlock < r.count)

/-- The toggle in the state, with the data-wanted frame it calls for (R103). -/
def State.toggle (s : State) (r : Request) : State :=
  let s := s.putData r r.toggle
  if r.takesData ∧ 12 * (r.round + 2) < r.count then s.giveWanted r (r.round + 2) else s

/-- The first state of the halves at the choice (R102, R103), with segments given (R100). -/
def Request.withSegments (r : Request) (a b : Fin 8) : Request :=
  let h0 := if r.takesData then Half.wanting 0 else Half.empty
  let h1 := if r.takesData ∧ 12 < r.count then Half.wanting 1 else { Half.empty with round := 1 }
  { r with segments := some (a, b), curHalf := false, half0 := h0, half1 := h1 }

/-- The two lowest free segments given to a data request at its choice, and its data-wanted frames (R77, R100, R103). -/
def State.grantSegments (s : State) (r : Request) : State :=
  match s.freeSegments with
  | a :: b :: _ =>
    let s := ((s.setSegment a (some r.rid)).setSegment b (some r.rid)).putRequest (r.withSegments a b)
    if r.takesData then
      let s := s.giveWanted r 0
      if 12 < r.count then s.giveWanted r 1 else s
    else s
  | _ => s

/-- The lowest block not yet arrived (R104). -/
def Request.awaitedBlock (r : Request) : Nat := r.arrived

/-- Data-wanted frames whose request has ended, left the table, or takes no more data, are withdrawn (R181). -/
def State.withdrawWanted (s : State) : State :=
  forPorts (fun s p => s.onPort p fun pr =>
    { pr with wanted := pr.wanted.filter fun w =>
        match s.table.find? (·.rid = w.rid) with
        | some r => !r.detached && r.held.isNone
        | none => false }) s

end Sys2Proof.Machine
end

