-- ==== Sys2Proof/Machine/Sparing.lean ====
section
/-! DEFINITION. The sparing operation (R118 to R123), the return (R134) and automatic sparing (R126, R127): their steps,
their ends, and the request after them. -/

namespace Sys2Proof.Machine

/-- An operation record replaced. -/
def State.putOp (s : State) (rid : Nat) (op : SpareOp) : State := s.onRequest rid fun r => { r with op := some op }

/-- An operation goes on to a leg: its record replaced and the arm sent to the leg's cylinder. -/
def State.opLegNext (s : State) (rid : Nat) (op : SpareOp) : State := (s.putOp rid op).aim rid

/-- The lowest sector from `i` on that is still to be read (R120). -/
def nextUnread (slots : List Slot) (i : Nat) : Option Nat :=
  (List.range 24).find? fun j => decide (i ≤ j) && decide (slots.getD j .void = .unread)

/-- Every sector still not read marked void (R120). -/
def voidUnread (slots : List Slot) : List Slot := slots.map fun x => if x = .unread then .void else x

/-- A slot of the sparing buffer set. -/
def State.setSlot (s : State) (i : Nat) (x : Slot) : State :=
  { s with buffer := { s.buffer with slots := s.buffer.slots.set i x } }

/-- The blocks of the current round on a home track, as slots of the sparing buffer (R127). -/
def Request.halfSlots (r : Request) (home : Nat) : List Slot :=
  (List.range 24).map fun sec =>
    let b := home * 24 + sec
    let i := b - r.startBlock
    if r.startBlock ≤ b ∧ 12 * r.round ≤ i ∧ i ≤ roundLast r.count r.round then
      .data (r.current.blocks.getD (i - 12 * r.round) zeroBlock)
    else .unread

/-- An operation's end frees the buffer and clears the record (R118, R119, R123). -/
def State.closeOp (s : State) (rid : Nat) : State :=
  (s.leaveBuffer rid).onRequest rid fun r => { r with op := none, state := .positioned }

/-- An operation ends its request (R119, R124, R125): a pending cancel, detachment or held ending comes first. -/
def State.opEnds (s : State) (rid : Nat) (e : Ending) : State :=
  let s := s.closeOp rid
  match s.request? rid with
  | none => s
  | some r => s.conclude rid (r.pendingEnding.getD e)

/-- The blocks of the current round copied to the alternate and not yet done count as done (R127). -/
def Request.countCopied (r : Request) (home : Nat) : Request :=
  let last := min (roundLast r.count r.round) (home * 24 + 23 - r.startBlock)
  let next := max r.nextBlock (last + 1)
  { r with
    nextBlock := next, blocksDone := next, retries := 0, checking := false, writePos := next
    failed := r.failed.filter fun f => decide (next ≤ f.1) }

/-- The request after an automatic sparing (R127): done, or on to its next block. -/
def State.resume (s : State) (rid home : Nat) : State :=
  match s.request? rid with
  | none => s
  | some r0 =>
    let r := r0.countCopied home
    let s := s.putRequest r
    match r.pendingEnding with
    | some e => s.conclude rid e
    | none =>
      if r.nextBlock = r.count then s.conclude rid r.doneEnding
      else (if r.roundComplete then s.toggle r else s).aim rid

/-- Steps 5 and 6 of a sparing (R123), and what its request does next (R127, R133). -/
def State.spareDone (s : State) (rid : Nat) (op : SpareOp) : State :=
  match s.request? rid with
  | none => s
  | some r =>
    let s := s.changeMap r.drive fun es =>
      let es := addEntry (dropHome es op.home) (.assign op.home op.alt op.origin)
      match op.source with
      | some k => addEntry es (.retire k)
      | none => es
    let s := s.onDrive r.drive fun dr => { dr with suspects := dropSuspect dr.suspects op.sourceTrack }
    let s := (s.closeOp rid).onRequest rid fun q => { q with spared := some op.home }
    if r.kind = .spareTrack then
      match s.request? rid with
      | none => s
      | some q => s.conclude rid (q.pendingEnding.getD q.doneEnding)
    else s.resume rid op.home

/-- Step 3 begins, on the alternate chosen (R121). -/
def State.opWrite (s : State) (rid : Nat) (op : SpareOp) : State :=
  let s := { s with buffer := { s.buffer with slots := voidUnread s.buffer.slots } }
  s.opLegNext rid { op with step := if op.step = .readAlternate then .writeHome else .writeAlternate, pos := 0 }

/-- The end of a read leg of step 2 (R120): a further revolution, with the recalibrate at the mid-count, or on to step
3. -/
def State.opReadEnd (s : State) (rid : Nat) (op : SpareOp) : State :=
  match nextUnread s.buffer.slots 0 with
  | none => s.opWrite rid op
  | some i =>
    if op.revs < s.settings.retryLimit then
      let s := s.putOp rid { op with pos := i, revs := op.revs + 1 }
      let mid := s.settings.retryLimit / 2
      if 1 ≤ mid ∧ op.revs + 1 = mid then
        match s.request? rid with
        | some r => s.recalibrateFor r.drive rid .toBlock
        | none => s
      else s
    else s.opWrite rid op

/-- A sparing or return begins at its step 2 (R119, R120, R134), the buffer held and its slots as given. -/
def State.beginOp (s : State) (rid : Nat) (op : SpareOp) (slots : List Slot) : State :=
  let s := { s with buffer := { s.buffer with holder := some rid, slots := slots } }
  let s := s.onRequest rid fun r => { r with state := .sparing, op := some op, phase := .idle }
  match nextUnread slots 0 with
  | some i => s.opLegNext rid { op with pos := i }
  | none => s.opWrite rid op

/-- A sparing begins with the choice of its alternate (R119): SPARE_EXHAUSTED when none is free. -/
def State.beginSparing (s : State) (rid : Nat) (home : Nat) (origin : Origin) (slots : List Slot) : State :=
  match s.request? rid with
  | none => s
  | some r =>
    let es := (s.drive r.drive).map.entries
    match chooseAlternate es home with
    | none =>
      let s := s.onRequest rid fun q => { q with state := .sparing }
      s.opEnds rid (Ending.at .ended .spareExhausted (sectorZero home))
    | some k =>
      s.beginOp rid
        { step := .readSource, home := home, source := lookupHome es home, alt := k, attempt := 1, origin := origin
          pos := 0, revs := 0 } slots

/-- SPARE TRACK at its choice (R133). -/
def State.chooseSpare (s : State) (r : Request) : State :=
  s.beginSparing r.rid r.namedTrack .field (List.replicate 24 .unread)

/-- RETURN ALTERNATE at its choice (R134). -/
def State.chooseReturn (s : State) (r : Request) : State :=
  match lookupHome (s.drive r.drive).map.entries r.namedTrack with
  | none => s.opEnds r.rid (Ending.make .done .none)
  | some k =>
    s.beginOp r.rid
      { step := .readAlternate, home := r.namedTrack, source := some k, alt := k, attempt := 1, origin := .field
        pos := 0, revs := 0 } (List.replicate 24 .unread)

/-- An automatic sparing begins for a request that holds the buffer (R126, R127). -/
def State.autoSparing (s : State) (rid : Nat) : State :=
  match s.request? rid with
  | none => s.leaveBuffer rid
  | some r =>
    let home := r.blockTrack r.nextBlock
    s.beginSparing rid home .auto (r.halfSlots home)

/-- An automatic sparing asked for (R126, R118): it begins, or the request enters SPARING_WAIT at the tail of the waiter
list. -/
def State.askSparing (s : State) (rid : Nat) : State :=
  let s := s.leavePaths rid
  if s.buffer.holder.isNone ∧ s.buffer.waiters.isEmpty = true then
    State.autoSparing { s with buffer := { s.buffer with holder := some rid } } rid
  else
    State.onRequest { s with buffer := { s.buffer with waiters := s.buffer.waiters ++ [rid] } } rid
      fun r => { r with state := .sparingWait, phase := .idle }

/-- An attempt of step 3 fails (R121): the alternate is retired and another chosen, or the sparing is exhausted. -/
def State.attemptFails (s : State) (rid : Nat) (op : SpareOp) : State :=
  match s.request? rid with
  | none => s
  | some r =>
    let s := s.changeMap r.drive fun es => addEntry es (.retire op.alt)
    let exhausted := Ending.at .ended .spareExhausted (sectorZero op.home)
    if op.attempt < 3 then
      match chooseAlternate (s.drive r.drive).map.entries op.home with
      | some k => s.opLegNext rid { op with step := .writeAlternate, alt := k, attempt := op.attempt + 1, pos := 0 }
      | none => s.opEnds rid exhausted
    else s.opEnds rid exhausted

/-- The home's check of a return fails (R134): written again, or the return ends WRITE_CHECK. -/
def State.returnCheckFails (s : State) (rid : Nat) (op : SpareOp) : State :=
  if op.attempt < s.settings.retryLimit then
    s.opLegNext rid { op with step := .writeHome, attempt := op.attempt + 1, pos := 0 }
  else s.opEnds rid (Ending.at .ended .writeCheck { sectorZero op.home with sector := op.pos })

/-- Step 3 of a return (R134): the assignment is removed, and the former alternate is cleared next. -/
def State.returnChecked (s : State) (rid : Nat) (op : SpareOp) : State :=
  match s.request? rid with
  | none => s
  | some r =>
    (s.changeMap r.drive fun es => dropHome es op.home).opLegNext rid { op with step := .clearAlternate, pos := 0 }

/-- The end of an operation's leg at its last sector, good (R121 to R123, R134). -/
def State.opLegEnd (s : State) (rid : Nat) (op : SpareOp) : State :=
  match op.step with
  | .readSource | .readAlternate => s.opReadEnd rid op
  | .writeAlternate => s.opLegNext rid { op with step := .checkAlternate, pos := 0 }
  | .checkAlternate => s.opLegNext rid { op with step := .rewriteHome, pos := 0 }
  | .rewriteHome => s.spareDone rid op
  | .writeHome => s.opLegNext rid { op with step := .checkHome, pos := 0 }
  | .checkHome => s.returnChecked rid op
  | .clearAlternate => s.opEnds rid (Ending.make .done .none)

/-- A leg of an operation finds the pack protected (R122, R124): step 4 is skipped, the clearing of a returned alternate
is left, any other step ends the operation. -/
def State.opProtected (s : State) (rid : Nat) (op : SpareOp) : State :=
  match op.step with
  | .rewriteHome => s.spareDone rid op
  | .clearAlternate => s.opEnds rid (Ending.make .done .none)
  | _ => s.opEnds rid (Ending.at .ended .writeProtected (sectorZero op.home))

end Sys2Proof.Machine
end

