-- ==== Sys2Proof/Machine/Recovery.lean ====
section
/-! DEFINITION. The recovery unit (R138 to R146) over the legs of requests: retries, seek checks, spent retries, the
failures of label, format and operation legs, map disagreements (R128, R129), and recovered blocks. -/

namespace Sys2Proof.Machine

/-! ### Endings of a leg -/

/-- A label write that has failed for good (R131, R136). -/
def State.labelFails (s : State) (rid : Nat) : State :=
  match s.request? rid with
  | none => s
  | some r =>
    let s := s.onDrive r.drive fun dr => { dr with map := { dr.map with labelState := .stale } }
    (s.postAll .labelFault r.drive).conclude rid (Ending.at .ended .writeCheck (addrOf (Config.labelTrack * 24)))

/-- An attempt of a label write fails (R131): the three legs again, or the write fails. DESIGN CHOICE (log entry 24): the retry
counter returns to 0 as an attempt begins. -/
def State.labelAttemptFails (s : State) (rid : Nat) (j : LabelJob) : State :=
  if j.attempt < s.settings.retryLimit then
    (s.onRequest rid fun r =>
      { r with label := some { j with step := 0, attempt := j.attempt + 1, back := [] }, retries := 0 }).aim rid
  else s.labelFails rid

/-- The address a request names its present block by (R67). -/
def Request.presentAddr (r : Request) : Addr :=
  match r.op with
  | some op => { sectorZero op.home with sector := op.pos }
  | none =>
    match r.label with
    | some j => addrOf (Config.labelTrack * 24 + labelSector j.step)
    | none =>
      match r.format with
      | some f => { sectorZero r.namedTrack with sector := f.pos }
      | none => r.blockAddr r.workBlock

/-- The ending of a block whose retries are spent (R139, R143, R75): an operation and a data kind end, an attempt of a
label write fails. -/
def State.spentRetries (s : State) (rid : Nat) (d : Detail) : State :=
  match s.request? rid with
  | none => s
  | some r =>
    if r.op.isSome then s.opEnds rid (Ending.at .ended d r.presentAddr)
    else
      match r.label with
      | some j => s.labelAttemptFails rid j
      | none => s.conclude rid (Ending.at .ended d r.presentAddr)

/-! ### Retries -/

/-- A seek check (R143): the drive's fault at the third, spent retries, which name the block of the seek check, or a
recalibrate and reseek, after which the request's leg stands as `restart` sets it. -/
def State.seekCheckThen (s : State) (d : Drive) (rid : Nat) (restart : Request → Request) : State :=
  match s.request? rid with
  | none => s
  | some r =>
    if 2 ≤ r.seekChecks then s.faultDrive d .repeatedSeekCheck (some r)
    else if s.settings.retryLimit ≤ r.retries then s.spentRetries rid .seekCheck
    else
      (s.putRequest (restart { r with seekChecks := r.seekChecks + 1, retries := r.retries + 1 })).recalibrateFor
        d rid .toBlock

/-- A seek check (R143) whose block is tried again where it failed. -/
def State.seekCheck (s : State) (d : Drive) (rid : Nat) : State := s.seekCheckThen d rid id

/-- A block retried (R139, R140): the counter rises, and at the mid-count the arm goes back to its stop first. -/
def State.retry (s : State) (d : Drive) (rid : Nat) : State :=
  let s := s.onRequest rid fun r => { r with retries := r.retries + 1 }
  match s.request? rid with
  | none => s
  | some r =>
    let mid := s.settings.retryLimit / 2
    if 1 ≤ mid ∧ r.retries = mid then s.recalibrateFor d rid .toBlock else s

/-- A header, data or write check (R139): retried, or `spent` when the retries are spent. -/
def State.retryOr (s : State) (d : Drive) (rid : Nat) (spent : State) : State :=
  match s.request? rid with
  | none => s
  | some r => if s.settings.retryLimit ≤ r.retries then spent else s.retry d rid

/-- The detail of a condition. -/
def Condition.detail : Condition → Detail
  | .header => .headerCheck
  | .seek => .seekCheck
  | .data => .dataCheck
  | .void => .voidSector
  | .write => .writeCheck
  | .disagree _ => .spareMapFault

/-! ### Recovered blocks (R146) -/

/-- A failure of a block handed to the recovery unit: whether any failure of the block was no seek check. -/
def noteFailure (fs : List (Nat × Bool)) (i : Nat) (blamesTrack : Bool) : List (Nat × Bool) :=
  if fs.any (·.1 = i) then fs.map fun f => if f.1 = i then (i, f.2 || blamesTrack) else f
  else fs ++ [(i, blamesTrack)]

/-- A block of a data request finished good on the disk side: the port's count, the tally of its track, and the request's
count or mark, when it was recovered. -/
def State.recovered (s : State) (r : Request) (i track : Nat) : State :=
  match r.failed.find? (·.1 = i) with
  | none => s
  | some f =>
    let s := s.raiseRecovered r.port r.drive
    let s := if f.2 then s.raiseSuspect r.drive track else s
    s.onRequest r.rid fun q =>
      let q := { q with failed := q.failed.filter (·.1 != i) }
      if q.kind = .readBlocks then { q with marks := q.marks ++ [i] } else { q with recovered := q.recovered + 1 }

/-! ### Failures by kind of leg -/

/-- A map disagreement (R128, R129): the home goes on trial, or the request ends SPARE_MAP_FAULT. -/
def State.disagreement (s : State) (rid : Nat) (link : Option Nat) : State :=
  match s.request? rid with
  | none => s
  | some r =>
    let fault := Ending.at .ended .spareMapFault r.presentAddr
    match link.bind altIndex? with
    | none => (s.putRequest { r with trial := none }).conclude rid fault
    | some k =>
      if isFreeIndex (s.drive r.drive).map.entries k && r.trial.isNone then
        (s.putRequest { r with trial := some (r.blockTrack r.workBlock, k) }).aim rid
      else (s.putRequest { r with trial := none }).conclude rid fault

/-- Whether an automatic sparing may be asked for a write leg's track (R126). -/
def State.mayAutoSpare (s : State) (r : Request) : Bool :=
  s.settings.autoSpare && (decide (r.kind = .writeBlocks) || decide (r.kind = .writeAndCheck)) && r.trial.isNone

/-- A failed block of a data kind (R138 to R143, R126, R128). -/
def State.dataFails (s : State) (d : Drive) (rid : Nat) (c : Condition) : State :=
  match s.request? rid with
  | none => s
  | some r =>
    let i := r.workBlock
    let noted := fun b => s.putRequest { r with failed := noteFailure r.failed i b }
    match c with
    | .disagree link => s.disagreement rid link
    | .void => s.conclude rid (Ending.at .ended .voidSector r.presentAddr)
    | .seek => (noted false).seekCheck d rid
    | .write =>
      if s.mayAutoSpare r then (noted true).askSparing rid
      else
        let s := (noted true).onRequest rid fun q => { q with checking := false, writePos := q.nextBlock }
        s.retryOr d rid (s.spentRetries rid .writeCheck)
    | c =>
      let spared := r.writeLeg && s.mayAutoSpare r
      let s := noted true
      let s := if r.kind = .writeAndCheck ∧ r.checking = true then
          s.onRequest rid fun q => { q with checking := false, writePos := q.nextBlock }
        else s
      s.retryOr d rid (if spared then s.askSparing rid else s.spentRetries rid c.detail)

/-- A failed block of a label write (R75, R131). -/
def State.labelBlockFails (s : State) (d : Drive) (rid : Nat) (j : LabelJob) (c : Condition) : State :=
  match c with
  | .seek => s.seekCheck d rid
  | .void => s.labelAttemptFails rid j
  | _ => s.retryOr d rid (s.labelAttemptFails rid j)

/-- A failed block of a format's check leg (R135). -/
def State.formatFails (s : State) (d : Drive) (rid : Nat) (f : FormatJob) (c : Condition) : State :=
  match c with
  | .seek => s.seekCheck d rid
  | _ =>
    if f.attempt < s.settings.retryLimit then
      s.onRequest rid fun r => { r with format := some { checking := false, pos := 0, attempt := f.attempt + 1 } }
    else
      match s.request? rid with
      | some r => s.conclude rid (Ending.at .ended .writeCheck r.presentAddr)
      | none => s

/-- A failed sector of an operation's check leg (R121, R134): a seek check takes the check leg again from sector 0. -/
def State.opCheckFails (s : State) (d : Drive) (rid : Nat) (op : SpareOp) (c : Condition) : State :=
  match c with
  | .seek => s.seekCheckThen d rid fun r => { r with op := some { op with pos := 0 } }
  | _ => if op.step = .checkHome then s.returnCheckFails rid op else s.attemptFails rid op

end Sys2Proof.Machine
end

