-- ==== Sys2Proof/Machine/Blocks.lean ====
section
/-! DEFINITION. Blocks and legs: the claim (R93 to R95), the beginning and the end of a block's sector (R98), what follows
a good block of each kind of leg (R99, R101, R109 to R113, R120 to R122, R131, R134, R135). -/

namespace Sys2Proof.Machine

/-! ### The claim -/

/-- A path granted to a request (R94, test 3): one reserved for it, else P0, else P1. -/
def State.grantPath (s : State) (rid : Nat) : Option State :=
  if s.path0 = .reserved rid then some { s with path0 := .claimed rid }
  else if s.path1 = .reserved rid then some { s with path1 := .claimed rid }
  else if s.path0 = .free then some { s with path0 := .claimed rid }
  else if s.path1 = .free then some { s with path1 := .claimed rid }
  else none

/-- A path miss (R95). -/
def State.pathMiss (s : State) (rid : Nat) : State :=
  match s.request? rid with
  | none => s
  | some r =>
    let misses := min 7 (r.misses + 1)
    let s := s.putRequest { r with misses := misses }
    if r.op.isNone ∧ s.settings.preferenceMisses ≤ misses ∧ s.preference.contains rid = false then
      { s with preference := s.preference ++ [rid] }
    else s

/-- What follows when a write leg finds the pack protected (R94, R124, R131). -/
def State.foundProtected (s : State) (rid : Nat) : State :=
  match s.request? rid with
  | none => s
  | some r =>
    match r.op with
    | some op => s.opProtected rid op
    | none => s.conclude rid (Ending.at .ended .writeProtected r.presentAddr)

/-- Whether the suspect test of a write leg asks for a sparing (R126, case 3). -/
def State.suspectTest (s : State) (r : Request) (l : Leg) : Bool :=
  r.kind.isData && r.writeLeg && s.mayAutoSpare r
    && decide (s.settings.suspectThreshold ≤ tallyOf (s.drive r.drive).suspects l.track)

/-- Tests 3 and 4 of the claim (R94). -/
def State.claimPath (s : State) (d : Drive) (rid : Nat) (l : Leg) : State :=
  match s.grantPath rid with
  | none => s.pathMiss rid
  | some s =>
    let s := s.onDrive d fun dr => { dr with head := headOf l.track }
    s.onRequest rid fun r =>
      let r := r.inState .transferring
      let r := if r.kind.isData ∧ r.op.isNone then r.filling else r
      { r with misses := 0, phase := .claimed }

/-- The claim of a request at its claim sector (R94). -/
def State.claim (s : State) (d : Drive) (r : Request) : State :=
  let l := s.leg r
  if cylOf l.track ≠ (s.drive d).curCyl then s.seekTo d r.rid (cylOf l.track)
  else if l.writesData ∧ (s.drive d).writeProtect = true then s.foundProtected r.rid
  else if r.kind.isData ∧ r.op.isNone ∧ r.ready = false then s
  else if r.op.isNone ∧ s.suspectTest r l = true then s.askSparing r.rid
  else s.claimPath d r.rid l

/-! ### Beginning a block -/

/-- The block of a claimed leg begins at its sector's event (R98), unless write fault stands raised (R32). -/
def State.beginBlock (s : State) (d : Drive) (rid : Nat) (n : Nat) : State :=
  match s.request? rid with
  | none => s
  | some r =>
    let l := s.leg r
    if l.sector ≠ n then s.onRequest rid fun q => { q with phase := .claimed }
    else if l.writesData ∧ (s.drive d).writeFault = true then s.faultDrive d .writeFault (some r)
    else s.onRequest rid fun q => { q with phase := .passing }

/-- A leg releases its path, its request POSITIONED (R96, R98, R99). -/
def State.releaseLeg (s : State) (rid : Nat) : State :=
  (s.releasePath rid).onRequest rid fun r => { r.inState .positioned with phase := .idle }

/-! ### After a good block -/

/-- The next block of a data request on another leg (R99): a head switch that keeps the path, or a release with the arm
sent to the next block's cylinder. -/
def State.nextLeg (s : State) (d : Drive) (rid : Nat) (n : Nat) (old : Leg) : State :=
  match s.request? rid with
  | none => s
  | some r =>
    let l := s.leg r
    let home := r.blockTrack r.workBlock
    if old.sector = 23 ∧ l.track = home ∧ cylOf l.track = (s.drive d).curCyl ∧ r.ready = true then
      if l.writesData ∧ (s.drive d).writeProtect = true then (s.releaseLeg rid).foundProtected rid
      else if s.suspectTest r l then (s.releaseLeg rid).askSparing rid
      else (s.onDrive d fun dr => { dr with head := headOf l.track }).beginBlock d rid n
    else (s.releaseLeg rid).aim rid

/-- The disk side goes on after a finished block of a read, write or check (R99, R101). -/
def State.goOn (s : State) (d : Drive) (rid : Nat) (n : Nat) (old : Leg) : State :=
  match s.request? rid with
  | none => s
  | some r =>
    let s := if r.roundComplete then s.toggle r else s
    match s.request? rid with
    | none => s
    | some r =>
      if (s.leg r).track = old.track then
        if r.ready then s.beginBlock d rid n else s.releaseLeg rid
      else s.nextLeg d rid n old

/-- The next block of the request advances over a finished block (R98, R139). -/
def Request.advance (r : Request) : Request := { r with nextBlock := r.nextBlock + 1, retries := 0 }

/-- The end of the request at a block boundary where a cancel, detachment or held ending stops it (R61, R105). -/
def State.stopAt (s : State) (rid : Nat) (e : Ending) : State := (s.releaseLeg rid).conclude rid e

/-- A good block of a read (R109). -/
def State.readGood (s : State) (d : Drive) (r : Request) (n : Nat) (l : Leg) (b : Block) : State :=
  let q := r.setHalf r.curHalf { r.current with blocks := r.current.blocks ++ [b] }
  let s := (s.putData r q.advance).recovered r r.nextBlock l.track
  match r.pendingEnding with
  | some e => s.stopAt r.rid e
  | none =>
    if r.nextBlock + 1 = r.count then s.onRequest r.rid fun q => { q with phase := .idle }
    else s.goOn d r.rid n l

/-- A block of a write or check done on the disk side (R110, R112, R113). -/
def State.doneGood (s : State) (d : Drive) (r : Request) (n : Nat) (l : Leg) : State :=
  let s := (s.putData r { r.advance with blocksDone := r.nextBlock + 1 }).recovered r r.nextBlock l.track
  match r.pendingEnding with
  | some e => s.stopAt r.rid e
  | none =>
    if r.nextBlock + 1 = r.count then
      match s.request? r.rid with
      | some q => s.conclude r.rid q.doneEnding
      | none => s
    else s.goOn d r.rid n l

/-- A block recorded in a write leg of WRITE AND CHECK (R111): on to the next of the leg, or the check leg. -/
def State.pairWritten (s : State) (d : Drive) (r : Request) (n : Nat) (l : Leg) : State :=
  match r.pendingEnding with
  | some e => s.stopAt r.rid e
  | none =>
    let w := r.writePos + 1
    let s := s.putRequest { r with writePos := w }
    if l.sector = 23 ∨ roundLast r.count r.round < w then
      (s.onRequest r.rid fun q => { q with checking := true }).releaseLeg r.rid
    else s.beginBlock d r.rid n

/-- A block checked good in a check leg of WRITE AND CHECK (R111). -/
def State.pairChecked (s : State) (d : Drive) (r : Request) (n : Nat) (l : Leg) : State :=
  let s := (s.putData r { r.advance with blocksDone := r.nextBlock + 1 }).recovered r r.nextBlock l.track
  match r.pendingEnding with
  | some e => s.stopAt r.rid e
  | none =>
    if r.nextBlock + 1 < r.writePos then s.beginBlock d r.rid n
    else
      match s.request? r.rid with
      | none => s
      | some q =>
        if q.nextBlock = q.count then s.conclude r.rid q.doneEnding
        else
          let q := { q with checking := false }
          let s := s.putRequest q
          ((if q.roundComplete then s.toggle q else s).releaseLeg r.rid).aim r.rid

/-- A compare finds a differing octet (R113). -/
def State.mismatch (s : State) (r : Request) : State :=
  (s.releaseLeg r.rid).conclude r.rid (r.pendingEnding.getD (Ending.at .ended .compareMismatch r.presentAddr))

/-- A trial passes in the event of its ID test (R128): the assignment is added with origin ADOPTED. -/
def State.adopt (s : State) (r : Request) : State :=
  match r.trial with
  | none => s
  | some (t, k) =>
    if t = r.blockTrack r.workBlock then
      (s.changeMap r.drive fun es => addEntry es (.assign t k .adopted)).onRequest r.rid
        fun q => { q with trial := none }
    else s

/-! ### The end of a sector -/

/-- A failed block (R98, R138): the path is released, the request POSITIONED at the block; a request that a cancel, a
detachment or a held ending stops here ends, any other goes to the unit that takes the condition. -/
def State.blockFails (s : State) (r : Request) (k : State → State) : State :=
  let s := s.releaseLeg r.rid
  match r.op, r.pendingEnding with
  | none, some e => s.conclude r.rid e
  | _, _ => k s

/-- The end of a sector of a data request's write leg (R98, R110, R111). -/
def State.writeSectorEnds (s : State) (d : Drive) (r : Request) (n : Nat) (l : Leg) (found : Sector) : State :=
  let dr := s.drive d
  match idCondition found.id dr.curCyl dr.head l.sector l.expect with
  | some c => s.blockFails r fun s => s.dataFails d r.rid c
  | none =>
    let s := s.adopt r
    let at_ := dr.underHeads l.sector
    let s := s.onDrive d fun dr => dr.record at_ (s.written r (dr.recorded at_) found)
    match s.request? r.rid with
    | none => s
    | some r => if r.kind = .writeAndCheck then s.pairWritten d r n l else s.doneGood d r n l

/-- The condition of a sector read in a check leg of WRITE AND CHECK (R111): a wrong check code or differing octets are a
write check. -/
def checkLegCondition (dr : DriveRec) (l : Leg) (found : Sector) (b : Block) : Option Condition :=
  match readCondition found dr.curCyl dr.head l.sector l.expect with
  | some .data => some .write
  | some c => some c
  | none => if found.data.block = b then none else some .write

/-- The end of a sector that a data request reads or checks (R98, R109, R111 to R113). -/
def State.readSectorEnds (s : State) (d : Drive) (r : Request) (n : Nat) (l : Leg) (found : Sector) : State :=
  let dr := s.drive d
  let pair := decide (r.kind = .writeAndCheck)
  let s := if idCondition found.id dr.curCyl dr.head l.sector l.expect = none then s.adopt r else s
  let c := if pair then checkLegCondition dr l found r.blockToWrite
    else readCondition found dr.curCyl dr.head l.sector l.expect
  match c with
  | some c => s.blockFails r fun s => s.dataFails d r.rid c
  | none =>
    match s.request? r.rid with
    | none => s
    | some r =>
      if pair then s.pairChecked d r n l
      else if r.kind = .readBlocks then s.readGood d r n l found.data.block
      else if r.compare ∧ found.data.block ≠ r.blockToWrite then s.mismatch r
      else s.doneGood d r n l

/-- The end of a sector of a label write (R131). DESIGN CHOICE (log entry 41): an ending that pends at the last sector read back
good comes first, and the label does not become CURRENT. The retry counter returns to 0 with each sector (log entry 24). -/
def State.labelSectorEnds (s : State) (d : Drive) (r : Request) (n : Nat) (l : Leg) (j : LabelJob) (found : Sector) :
    State :=
  let dr := s.drive d
  let step := fun (s : State) (j : LabelJob) =>
    s.onRequest r.rid fun q => { q with label := some j, retries := 0 }
  if j.step < 3 then
    match idCondition found.id dr.curCyl dr.head l.sector l.expect with
    | some c => s.blockFails r fun s => s.labelBlockFails d r.rid j c
    | none =>
      let at_ := dr.underHeads l.sector
      let s := s.onDrive d fun dr => dr.record at_ (s.written r (dr.recorded at_) found)
      let s := step s { j with step := j.step + 1 }
      match r.pendingEnding with
      | some e => s.stopAt r.rid e
      | none => if j.step = 0 then s.beginBlock d r.rid n else s.releaseLeg r.rid
  else
    match readCondition found dr.curCyl dr.head l.sector l.expect with
    | some c => s.blockFails r fun s => s.labelBlockFails d r.rid j c
    | none =>
      let back := j.back ++ [found.data.block]
      match r.pendingEnding with
      | some e => s.stopAt r.rid e
      | none =>
        if j.step < 5 then (step s { j with step := j.step + 1, back := back }).beginBlock d r.rid n
        else
          let s := s.releaseLeg r.rid
          if readLabel (back.getD 0 []) (back.getD 1 []) (back.getD 2 []) = some j.image then
            let s := s.onDrive d fun dr =>
              { dr with map := { dr.map with labelState := .current, generation := j.image.generation } }
            s.conclude r.rid (Ending.make .done .none)
          else s.labelAttemptFails r.rid j

/-- A format that checks good (R135). -/
def State.formatGood (s : State) (r : Request) : State :=
  let s := s.onDrive r.drive fun dr => { dr with suspects := dropSuspect dr.suspects r.namedTrack }
  let es := (s.drive r.drive).map.entries
  let s := match altIndex? r.namedTrack with
    | some k => if retiredIndex es k then s.changeMap r.drive fun es => dropRetirement es k else s
    | none => s
  s.conclude r.rid (Ending.make .done .none)

/-- The end of a sector of a format (R135). DESIGN CHOICE (log entry 41): an ending that pends at the last sector checked good
comes first, and the suspect entry and the retirement stay. -/
def State.formatSectorEnds (s : State) (d : Drive) (r : Request) (n : Nat) (l : Leg) (f : FormatJob) (found : Sector) :
    State :=
  let dr := s.drive d
  let step := fun (s : State) (f : FormatJob) => s.onRequest r.rid fun q => { q with format := some f }
  if f.checking = false then
    let at_ := dr.underHeads l.sector
    let s := s.onDrive d fun dr => dr.record at_ (s.written r (dr.recorded at_) found)
    match r.pendingEnding with
    | some e => s.stopAt r.rid e
    | none =>
      if f.pos < 23 then (step s { f with pos := f.pos + 1 }).beginBlock d r.rid n
      else (step s { f with checking := true, pos := 0 }).releaseLeg r.rid
  else
    let c := match idCondition found.id dr.curCyl dr.head l.sector l.expect with
      | some c => some c
      | none => if found.id.void = 0 ∧ found.data.good = true ∧ found.data.block = zeroBlock then none
        else some .write
    match c with
    | some c => s.blockFails r fun s => s.formatFails d r.rid f c
    | none =>
      match r.pendingEnding with
      | some e => s.stopAt r.rid e
      | none =>
        if f.pos < 23 then (step s { f with pos := f.pos + 1 }).beginBlock d r.rid n
        else (s.releaseLeg r.rid).formatGood r

/-- The end of a sector of an operation's read leg (R120): the first leg runs to sector 23, one of a further revolution to the
last sector still unread. A seek check names its sector and, retried, starts again at the lowest sector to be read (R143). -/
def State.opReadSector (s : State) (d : Drive) (r : Request) (n : Nat) (l : Leg) (op : SpareOp) (found : Sector) :
    State :=
  let dr := s.drive d
  let wanted := decide (s.buffer.slots.getD op.pos .void = .unread)
  let c := idCondition found.id dr.curCyl dr.head l.sector l.expect
  if wanted ∧ c = some .seek then
    let first := (nextUnread s.buffer.slots 0).getD op.pos
    (s.releaseLeg r.rid).seekCheckThen d r.rid fun r => { r with op := some { op with pos := first } }
  else
    let s := if wanted ∧ c = none then
        if found.id.void = 1 then s.setSlot op.pos .void
        else if found.data.good then s.setSlot op.pos (.data found.data.block) else s
      else s
    if (nextUnread s.buffer.slots (op.pos + 1)).isSome ∨ (op.revs = 0 ∧ op.pos < 23) then
      (s.putOp r.rid { op with pos := op.pos + 1 }).beginBlock d r.rid n
    else (s.releaseLeg r.rid).opReadEnd r.rid op

/-- The end of a sector of an operation's recording leg (R121, R122, R134). -/
def State.opWriteSector (s : State) (d : Drive) (r : Request) (n : Nat) (l : Leg) (op : SpareOp) (found : Sector) :
    State :=
  let at_ := (s.drive d).underHeads l.sector
  let s := s.onDrive d fun dr => dr.record at_ (s.written r (dr.recorded at_) found)
  if op.pos < 23 then (s.putOp r.rid { op with pos := op.pos + 1 }).beginBlock d r.rid n
  else (s.releaseLeg r.rid).opLegEnd r.rid op

/-- The end of a sector of an operation's check leg (R121, R134). -/
def State.opCheckSector (s : State) (d : Drive) (r : Request) (n : Nat) (l : Leg) (op : SpareOp) (found : Sector) :
    State :=
  let dr := s.drive d
  let slot := s.buffer.slots.getD op.pos .void
  let c := match idCondition found.id dr.curCyl dr.head l.sector l.expect with
    | some c => some c
    | none => if found.data.good = true ∧ found.data.block = slot.block then none else some .write
  match c with
  | some c => (s.releaseLeg r.rid).opCheckFails d r.rid op c
  | none =>
    if op.pos < 23 then (s.putOp r.rid { op with pos := op.pos + 1 }).beginBlock d r.rid n
    else (s.releaseLeg r.rid).opLegEnd r.rid op

/-- The end of the sector in progress (R98). -/
def State.sectorEnds (s : State) (d : Drive) (r : Request) (n : Nat) (read : SurfaceRead) : State :=
  let l := s.leg r
  let found := (s.drive d).found l.sector read
  match r.op with
  | some op =>
    match op.step with
    | .readSource | .readAlternate => s.opReadSector d r n l op found
    | .checkAlternate | .checkHome => s.opCheckSector d r n l op found
    | _ => s.opWriteSector d r n l op found
  | none =>
    match r.label with
    | some j => s.labelSectorEnds d r n l j found
    | none =>
      match r.format with
      | some f => s.formatSectorEnds d r n l f found
      | none => if r.writeLeg then s.writeSectorEnds d r n l found else s.readSectorEnds d r n l found

/-- A sector event at the arm owner of a drive (R31, R93, R98): the sector in progress ends, a claimed leg's block begins,
or the claim is tried. -/
def State.ownerSector (s : State) (d : Drive) (r : Request) (n : Nat) (read : SurfaceRead) : State :=
  match r.phase with
  | .passing => s.sectorEnds d r n read
  | .claimed =>
    match r.op, r.pendingEnding with
    | none, some e => s.stopAt r.rid e
    | _, _ => s.beginBlock d r.rid n
  | .idle =>
    if r.state = .transferring then
      match r.pendingEnding with
      | some e => s.stopAt r.rid e
      | none => s
    else if (s.drive d).arm = .onCylinder ∧ (r.state = .positioned ∨ r.op.isSome = true)
        ∧ n = claimSector (s.leg r).sector then s.claim d r
    else s

end Sys2Proof.Machine
end

