-- ==== Sys2Proof/Machine/Loading.lean ====
section
/-! DEFINITION. The label read of a load and its completion (R24, R25, R116, R145), and the sector event at a drive (R31). -/

namespace Sys2Proof.Machine

/-- The map record a load leaves (R116), before the spares-low check. -/
def loadedMap (label : Option LabelImage) : MapRec :=
  match label with
  | some m => { entries := sortBy MapEntry.key m.entries, labelState := .current, generation := m.generation, armed := true }
  | none => { entries := [], labelState := .stale, generation := 0, armed := true }

/-- A load completes (R25): the map and serial, LABEL_FAULT when unreadable, READY, the spares-low check re-armed,
attention, and the waiting START DRIVE requests, which all end DONE before a chain behind one goes on (log entry 43). -/
def State.loadComplete (s : State) (d : Drive) (label : Option LabelImage) : State :=
  let s := s.onDrive d fun dr => { dr with map := loadedMap label, serial := label.map (·.serial) }
  let s := if label.isNone then s.postAll .labelFault d else s
  let s := s.onDrive d fun dr => { dr with state := .ready, arm := .idle, owner := none, load := LoadRec.initial }
  let s := forPorts (fun s p => s.setAttention d p .packReady) (s.checkSpares d)
  let waiting := s.table.filter fun r =>
    decide (r.drive = d) && decide (r.kind = .startDrive) && decide (r.state = .controlWait)
  s.endTogether (waiting.map (·.rid))

/-- A recalibrate for a label retry (R145). -/
def State.loadRecalibrate (s : State) (d : Drive) : State :=
  s.onDrive d fun dr => { dr.recalibrate with load := { dr.load with step := .recalibrate, passing := false } }

/-- A label sector of a load fails (R145). -/
def State.loadFails (s : State) (d : Drive) (c : Condition) : State :=
  let ld := (s.drive d).load
  let limit := s.settings.retryLimit
  let put := fun (ld : LoadRec) => s.onDrive d fun dr => { dr with load := { ld with passing := false } }
  match c with
  | .void => s.loadComplete d none
  | .seek =>
    if 2 ≤ ld.seekChecks then s.faultDrive d .repeatedSeekCheck none
    else if limit ≤ ld.retries then s.loadComplete d none
    else (put { ld with seekChecks := ld.seekChecks + 1, retries := ld.retries + 1 }).loadRecalibrate d
  | _ =>
    if limit ≤ ld.retries then s.loadComplete d none
    else
      let s := put { ld with retries := ld.retries + 1 }
      if 1 ≤ limit / 2 ∧ ld.retries + 1 = limit / 2 then s.loadRecalibrate d else s

/-- A sector event during the label read (R24, R145). -/
def State.loadSector (s : State) (d : Drive) (n : Nat) (read : SurfaceRead) : State :=
  let dr := s.drive d
  let ld := dr.load
  if ld.passing then
    let found := dr.found ld.sector read
    match readCondition found dr.curCyl dr.head ld.sector .label with
    | some c => s.loadFails d c
    | none =>
      let blocks := ld.blocks ++ [found.data.block]
      if ld.sector < 2 then
        s.onDrive d fun dr =>
          { dr with load := { ld with
              sector := ld.sector + 1, passing := decide (n = ld.sector + 1), retries := 0, blocks := blocks } }
      else s.loadComplete d (readLabel (blocks.getD 0 []) (blocks.getD 1 []) (blocks.getD 2 []))
  else if n = ld.sector then s.onDrive d fun dr => { dr with load := { ld with passing := true } }
  else s

/-- A sector event of a drive (R31): the counter and the elapsed time, then the load or the arm owner. -/
def State.sectorEvent (s : State) (d : Drive) (n : Nat) (read : SurfaceRead) : State :=
  let s := s.onDrive d fun dr => { dr with sector := n, elapsed := 0 }
  match (s.drive d).state with
  | .loading => if (s.drive d).load.step = .read then s.loadSector d n read else s
  | .ready =>
    match s.owner? d with
    | some r => s.ownerSector d r n read
    | none => s
  | _ => s

end Sys2Proof.Machine
end

