-- ==== Sys2Proof/Machine/Scheduler.lean ====
section
/-! DEFINITION. The arm scheduler (R73 to R91): overlap, segment waiters, eligibility, estimates, the choice and the
decision; and the settling of an event: the buffer handed on (R118), SYNCHRONIZE settled (R153), decisions made in the
order of R91, starts begun (R21). -/

namespace Sys2Proof.Machine

/-- A READY drive's arm is free (R26). -/
def DriveRec.armFree (dr : DriveRec) : Bool :=
  decide (dr.state = .ready) && decide (dr.arm = .idle) && dr.owner.isNone

/-- One request keeps another from the arm by overlap (R78). -/
def Request.bars (q r : Request) : Bool :=
  overlaps q.extent r.extent && (q.kind.writeClass || r.kind.writeClass)

/-- A queued request is barred by overlap (R78): by an older request QUEUED or in WAITING_CHAIN, or by the arm owner. -/
def State.barred (s : State) (r : Request) : Bool :=
  (s.table.any fun q => decide (q.drive = r.drive) && decide (q.rid < r.rid)
      && (decide (q.state = .queued) || decide (q.state = .waitingChain)) && q.bars r)
    || match s.owner? r.drive with
      | some q => q.bars r
      | none => false

/-- Segment waiters of a drive (R79), in arrival order. -/
def State.segmentWaiters (s : State) (d : Drive) : List Request :=
  if (s.drive d).armFree then (s.queue d).filter fun r => r.kind.isData && !s.barred r else []

/-- Whether a request's pass count has reached OVERDUE_PASSES (R81). -/
def State.overdue (s : State) (r : Request) : Bool := decide (s.settings.overduePasses ≤ r.passes)

/-- The overdue segment waiters of the string (R79). -/
def State.overdueWaiters (s : State) : List Request :=
  allDrives.flatMap fun d => (s.segmentWaiters d).filter s.overdue

/-- The oldest overdue segment waiter of the string (R79). -/
def State.oldestOverdue (s : State) : Option Request := leastBy (fun r => (r.rid : Int)) s.overdueWaiters

/-- Whether the store would grant a data request two segments (R79, R100). -/
def State.wouldGrant (s : State) (r : Request) : Bool :=
  decide (2 ≤ s.freeSegments.length) && match s.oldestOverdue with
    | some w => decide (w.rid = r.rid)
    | none => true

/-- The kinds that are given the sparing buffer at their choice (R77, R79). -/
def Kind.takesBuffer (k : Kind) : Bool := decide (k = .spareTrack) || decide (k = .returnAlternate)

/-- A queued request of a free arm is eligible (R78, R79). -/
def State.eligible (s : State) (r : Request) : Bool :=
  !s.barred r &&
    (if r.kind.isData then s.wouldGrant r
    else if r.kind.takesBuffer then s.buffer.holder.isNone
    else true)

/-- The target of a queued request (R84): its cylinder, and the sector of kinds that transfer. -/
def State.target (s : State) (r : Request) : Nat × Option Nat :=
  let es := (s.drive r.drive).map.entries
  match r.kind with
  | .position => (r.addr.cyl, none)
  | .recalibrate => (0, none)
  | .spareTrack | .returnAlternate => (cylOf (physicalTrack es r.namedTrack), some 0)
  | .formatTrack => (r.addr.cyl, some 0)
  | .writeLabel | .labelUpdate => (Config.labelCyl, some 1)
  | _ => (cylOf (dataTrack es r 0).1, some r.addr.sector)

/-- The angle of a drive (R31). -/
def DriveRec.angle (dr : DriveRec) : Nat := dr.sector * 700 + dr.elapsed

/-- The estimate of a queued request (R85). -/
def State.estimate (s : State) (r : Request) : Nat :=
  let dr := s.drive r.drive
  match s.target r with
  | (c, some sec) => transferEstimate dr.angle dr.curCyl c sec
  | (c, none) => seekProfile (distance dr.curCyl c)

/-- The score (R86). -/
def State.score (s : State) (r : Request) : Int := (s.estimate r : Int) - 4000 * (r.priority : Int)

/-- The choice among the eligible requests (R80), which stand in arrival order. -/
def State.choose (s : State) (rs : List Request) : Option Request :=
  match rs.find? (·.chainPrecedence) with
  | some r => some r
  | none =>
    match rs.find? s.overdue with
    | some r => some r
    | none => leastBy s.score rs

/-- The request a decision at a drive would choose, when one is possible (R76, R77 steps 1 and 2). -/
def State.decision? (s : State) (d : Drive) : Option Request :=
  if (s.drive d).armFree then s.choose ((s.queue d).filter s.eligible) else none

/-- The passes of a decision (R81): every other queued request of the drive gains one. -/
def State.countPasses (s : State) (d : Drive) (chosen : Nat) : State :=
  let pass := fun (r : Request) =>
    if r.drive = d ∧ r.state = .queued ∧ r.rid ≠ chosen then { r with passes := min 15 (r.passes + 1) } else r
  { s with table := s.table.map pass }.onDrive d fun dr => { dr with labelUpdate := dr.labelUpdate.map pass }

/-- Whether FORMAT TRACK's track stands in the map (R135). -/
def trackInMap (es : List MapEntry) (track : Nat) : Bool :=
  (lookupHome es track).isSome || match altIndex? track with
    | some k => assignedIndex es k
    | none => false

/-- A label write begins with the image it records (R131). -/
def State.beginLabel (s : State) (r : Request) : State :=
  let dr := s.drive r.drive
  let image : LabelImage :=
    { serial := dr.serial.getD 0, generation := (dr.map.generation + 1) % 65536, entries := dr.map.entries }
  (s.onRequest r.rid fun q => { q with label := some { image := image, step := 0, attempt := 1, back := [] } }).aim r.rid

/-- The chosen request, arm owner, enters its first state (R77 steps 4 and 5, R82). -/
def State.firstState (s : State) (r : Request) : State :=
  match r.kind with
  | .position => s.seekTo r.drive r.rid r.addr.cyl
  | .recalibrate => s.recalibrateFor r.drive r.rid .finish
  | .spareTrack => s.chooseSpare r
  | .returnAlternate => s.chooseReturn r
  | .formatTrack =>
    if trackInMap (s.drive r.drive).map.entries r.namedTrack then
      s.conclude r.rid (Ending.make .refused .trackInMap)
    else
      (s.onRequest r.rid fun q => { q with format := some { checking := false, pos := 0, attempt := 1 } }).aim r.rid
  | .writeLabel | .labelUpdate => s.beginLabel r
  | _ => (s.grantSegments r).aim r.rid

/-- A decision carried out (R77). -/
def State.decideArm (s : State) (d : Drive) (r : Request) : State :=
  let s := s.countPasses d r.rid
  let r := { r with reachedArm := true, state := .positioned }
  let s := (s.putRequest r).onDrive d fun dr => { dr with owner := some r.rid, retryMark := false, arm := .onCylinder }
  s.firstState r

/-! ### Settling an event -/

/-- The drives holding segment waiters, in the order of R91. -/
def State.waiterDrives (s : State) : List Drive :=
  let oldest := fun d => match s.segmentWaiters d with
    | r :: _ => r.rid
    | [] => 0
  let ds := sortBy oldest (allDrives.filter fun d => !(s.segmentWaiters d).isEmpty)
  match s.oldestOverdue with
  | some w => w.drive :: ds.filter (· != w.drive)
  | none => ds

/-- The drives with a free arm whose queue holds an unbarred request for the buffer, in the order of R91. -/
def State.bufferDrives (s : State) : List Drive :=
  let asking := fun d => (s.queue d).find? fun r => r.kind.takesBuffer && !s.barred r
  let oldest := fun d => match asking d with
    | some r => r.rid
    | none => 0
  sortBy oldest (allDrives.filter fun d => (s.drive d).armFree && (asking d).isSome)

/-- A change offers segments to the drives that hold segment waiters (R76): segments are freed; or two or more are free, and
OVERDUE_PASSES is changed or an overdue segment waiter ceases to be one. -/
def State.offersSegments (s t : State) : Bool :=
  (t.freeSegments.any fun i => !s.freeSegments.contains i)
    || decide (2 ≤ t.freeSegments.length)
      && (decide (s.settings.overduePasses ≠ t.settings.overduePasses)
        || s.overdueWaiters.any fun r => !t.overdueWaiters.any fun q => q.rid == r.rid)

/-- A change frees the sparing buffer (R76), which was held, or which the request chosen in it took. -/
def State.freesBuffer (s t : State) (took : Bool) : Bool :=
  (s.buffer.holder.isSome || took) && t.buffer.holder.isNone

/-- Where the decision tests of an event stand (R76, R91). -/
structure TestPlan where
  /-- The event has offered segments. -/
  segments : Bool
  /-- The event has freed the sparing buffer. -/
  buffer : Bool
  /-- An offer has been made since the order was last drawn up. -/
  due : Bool
  /-- The drives still to be tested, in their order. -/
  order : List Drive
  deriving DecidableEq, Repr

/-- The tests of an event that has yet to draw up their order. -/
def TestPlan.initial : TestPlan := { segments := false, buffer := false, due := true, order := allDrives }

/-- The tests after one change more of the event: what it offers is taken up at the next test. -/
def TestPlan.after (q : TestPlan) (s t : State) (took : Bool) : TestPlan :=
  let x := s.offersSegments t
  let y := s.freesBuffer t took
  { q with segments := q.segments || x, buffer := q.buffer || y, due := q.due || x || y }

/-- The drives still to be tested (R76, R91). The order is drawn up once for what the event offers, and stands while its
tests are made, whatever they take; a further offer, as where an overdue segment waiter ceases to be one with two segments
free, draws it up again.

DESIGN CHOICE (log entry 15): R91 gives one event that offers segments and frees the buffer no order between the two; the
segment order is taken first where two or more drives hold segment waiters, the buffer order where one does or none. An
event that offers neither tests the drives with segment waiters first, then those asking for the buffer. Drives that stand
in neither order are tested in ascending number. -/
def State.testOrder (s : State) (q : TestPlan) : List Drive :=
  if q.due then
    let bufferLeads := q.buffer && s.buffer.holder.isNone && !(q.segments && decide (2 ≤ s.waiterDrives.length))
    (if bufferLeads then s.bufferDrives ++ s.waiterDrives else s.waiterDrives ++ s.bufferDrives) ++ q.order
  else q.order

/-- The first drive of a list whose test finds a decision possible (R76), with the request it chooses and the drives behind
it. -/
def State.firstDecision (s : State) : List Drive → Option (Drive × Request × List Drive)
  | [] => none
  | d :: ds =>
    match s.decision? d with
    | some r => some (d, r, ds)
    | none => s.firstDecision ds

/-- The next decision of an event, if any is possible: in the order of its tests, then at a drive that a later change of the
event has opened to one. -/
def State.nextDecision (s : State) (q : TestPlan) : Option (Drive × Request × List Drive) :=
  match s.firstDecision (s.testOrder q) with
  | some x => some x
  | none => s.firstDecision allDrives

/-- A decision of an event made, with the tests that follow it: the drive's own first, which finds its arm free again where
the request chosen has ended at once (R87), then those behind it. -/
def State.decideIn (s : State) (q : TestPlan) (d : Drive) (r : Request) (ds : List Drive) : State × TestPlan :=
  let t := s.decideArm d r
  (t, TestPlan.after { q with due := false, order := d :: ds } s t r.kind.takesBuffer)

/-- The buffer, freed, goes to the head of its waiter list (R118). -/
def State.grantBuffer? (s : State) : Option State :=
  match s.buffer.holder, s.buffer.waiters with
  | none, rid :: rest =>
    some (State.autoSparing { s with buffer := { s.buffer with holder := some rid, waiters := rest } } rid)
  | _, _ => none

/-- The waiting SYNCHRONIZE requests whose last awaited write has left (R153). -/
def State.settled (s : State) : List Request :=
  s.table.filter fun r => decide (r.kind = .synchronize) && decide (r.state = .controlWait) && (s.awaited r).isEmpty

/-- What the SYNCHRONIZE requests of a port and drive have ended with in the present event (R153): DEFERRED with a record,
or DONE. -/
abbrev SyncOutcomes := List ((Port × Drive) × Option DeferredRec)

/-- What a settled SYNCHRONIZE ends with (R153): what those of its port and drive have ended with in this event, else the
deferred record that stands. -/
def State.syncOutcome (s : State) (os : SyncOutcomes) (r : Request) : Option DeferredRec :=
  match os.find? fun x => decide (x.1 = (r.port, r.drive)) with
  | some x => x.2
  | none => ofPort (s.drive r.drive).deferred r.port

/-- The outcomes of an event with that of one more SYNCHRONIZE. -/
def noteOutcome (os : SyncOutcomes) (r : Request) (x : Option DeferredRec) : SyncOutcomes :=
  if os.any fun y => decide (y.1 = (r.port, r.drive)) then os else os ++ [((r.port, r.drive), x)]

/-- The SYNCHRONIZE requests whose awaited writes have left end in arrival order (R153), those that a broken chain (R56)
lets settle with the rest; the successors of those ended DONE, whose places are collected, still wait. -/
def State.settleReports : Nat → SyncOutcomes → List Nat → State → State × SyncOutcomes × List Nat
  | 0, os, ended, s => (s, os, ended)
  | n + 1, os, ended, s =>
    match s.settled with
    | [] => (s, os, ended)
    | r :: _ =>
      let x := s.syncOutcome os r
      match x with
      | some y => (s.endBroken r (Ending.make .deferred .none) (.deferred y)).settleReports n (noteOutcome os r x) ended
      | none =>
        (s.concludeDone r.rid).settleReports n (noteOutcome os r x) (ended ++ [r.rid])

/-- The waiting SYNCHRONIZE requests settled (R153): all end, the records they ended with are cleared once after the last,
and then the chains behind those ended DONE are released (R55), so that no successor's start reaches one of them.

DESIGN CHOICE (log entry 40): the release waits for the reports of the other requests settled, and a record is cleared
before what else follows in the event, the outcome being kept for a SYNCHRONIZE settled later in it. -/
def State.settleSync? (s : State) (os : SyncOutcomes) : Option (State × SyncOutcomes) :=
  match s.settled with
  | [] => none
  | _ =>
    let (t, os', ended) := s.settleReports s.table.length os []
    let t := (os'.drop os.length).foldl (fun t x => if x.2.isSome then t.clearDeferred x.1.1 x.1.2 else t) t
    some (ended.foldl State.releaseBehind t, os')

/-- The drive whose start may begin (R21). -/
def State.startable (s : State) : Option Drive :=
  let starting := (allDrives.filter fun d => decide ((s.drive d).state = .starting)).length
  if s.gateOpen ∧ starting < 2 then
    s.startList.find? fun d =>
      let dr := s.drive d
      decide (dr.state = .stopped) && dr.packSeated && dr.doorClosed
  else none

/-- A start begins (R21). -/
def State.beginStartOf (s : State) (d : Drive) : State :=
  State.onDrive
    { s with startList := s.startList.filter (· != d), gateOpen := false, gapTimer := some Config.gapTime } d
    fun dr => { dr with state := .starting, motor := .accelerating, spinTimer := some Config.spinTime }

/-- One thing that follows in an event: the buffer handed on, SYNCHRONIZE settled, a decision made, a start begun. -/
def State.settleStep (s : State) (os : SyncOutcomes) (q : TestPlan) : Option (State × SyncOutcomes × TestPlan) :=
  match s.grantBuffer? with
  | some t => some (t, os, q.after s t true)
  | none =>
    match s.settleSync? os with
    | some (t, os) => some (t, os, q.after s t false)
    | none =>
      match s.nextDecision q with
      | some (d, r, ds) =>
        let (t, q) := s.decideIn q d r ds
        some (t, os, q)
      | none => s.startable.map fun d => (s.beginStartOf d, os, q)

/-- What follows in an event, as long as anything does. -/
def State.settleBy : Nat → SyncOutcomes → TestPlan → State → State
  | 0, _, _, s => s
  | n + 1, os, q, s =>
    match s.settleStep os q with
    | some (t, os, q) => State.settleBy n os q t
    | none => s

/-- An event settled with the tests it has to make: every entry of the table can be chosen, granted or settled once, and
every drive started. -/
def State.settleWith (s : State) (q : TestPlan) : State := State.settleBy 256 [] q s

/-- An event that has taken `s` to `t`, settled. -/
def State.settle (s t : State) : State := t.settleWith (TestPlan.initial.after s t false)

/-- A request or the label update joins a drive's queue: that drive is tested (R76), and what the decision changes is
settled. -/
def State.testAfterJoin (s : State) (d : Drive) : State :=
  match s.decision? d with
  | some r =>
    let (t, q) := s.decideIn TestPlan.initial d r allDrives
    t.settleWith q
  | none => s

end Sys2Proof.Machine
end

