-- ==== Sys2Proof/Machine/Operands.lean ====
section
/-! DEFINITION. The operands of request frames (R45, R46, 10.8) and the field check, check 4 (R48): flags, parameter
length, ranges, addresses and extents. -/

namespace Sys2Proof

/-- The flags of a request frame (10.8). -/
def RequestFrame.chain (f : RequestFrame) : Bool := f.flags.getLsbD 7
def RequestFrame.earlyEnd (f : RequestFrame) : Bool := f.flags.getLsbD 6
def RequestFrame.passWatch (f : RequestFrame) : Bool := f.flags.getLsbD 5
def RequestFrame.raw (f : RequestFrame) : Bool := f.flags.getLsbD 4
def RequestFrame.compare (f : RequestFrame) : Bool := f.flags.getLsbD 3

/-- The tag of a request frame: the low four bits (10.8). -/
def RequestFrame.tagNumber (f : RequestFrame) : Nat := f.tag.toNat % 16

/-- One octet and two octets of the parameters, as numbers. -/
def RequestFrame.one (f : RequestFrame) (i : Nat) : Nat := (Machine.octetAt f.params i).toNat
def RequestFrame.two (f : RequestFrame) (i : Nat) : Nat := f.one i * 256 + f.one (i + 1)

end Sys2Proof

namespace Sys2Proof.Machine

/-- The parameters of a request, read. -/
inductive Operands where
  | empty
  | data (addr : Addr) (count : Nat)
  | cylinder (c : Nat)
  | track (addr : Addr)
  | format (addr : Addr) (unassigned : Bool)
  | target (tag : Nat)
  | window (w : Fin 4) (base length : Nat) (access : Access) (action : Action) (scope : Scope)
  | windowNumber (w : Fin 4)
  | collect (limit : Nat) (selection : List NoticeKind)
  | port (p : Port)
  | settings (items : List SettingItem)
  deriving DecidableEq, Repr, Inhabited

/-- Whether every flag set is allowed on the kind (R45), bits 2 to 0 being none (10.8). -/
def flagsAllowed (k : Kind) (f : RequestFrame) : Bool :=
  (!f.chain || k.tableEntry)
    && (!f.earlyEnd || decide (k = .writeBlocks) || decide (k = .writeAndCheck))
    && (!f.passWatch || k.windowed)
    && (!f.raw || decide (k = .readBlocks) || decide (k = .checkBlocks))
    && (!f.compare || decide (k = .checkBlocks))
    && decide (f.flags.toNat % 8 = 0)

/-- A window number (R169). -/
def windowNumber? (n : Nat) : Option (Fin 4) := if h : n < 4 then some ⟨n, h⟩ else none

/-- A port from its code, 1 to 4 (10.8). -/
def portOfCode : Nat → Option Port
  | 1 => some .A
  | 2 => some .B
  | 3 => some .C
  | 4 => some .D
  | _ => none

/-- The ten notice kinds in the order of R164's table. -/
def noticeKinds : List NoticeKind :=
  [.driveFree, .attention, .deferredError, .driveFaulted, .reservationLost, .labelFault, .sparesLow, .windowMatch,
    .linkOverrun, .test]

/-- A notice kind from its code, 1 to 10 (10.8). -/
def noticeOfCode (n : Nat) : Option NoticeKind := if n = 0 then none else noticeKinds[n - 1]?

/-- The nine settings in the order of R68's table. -/
def settingTable : List Setting :=
  [.retryLimit, .autoSpare, .suspectThreshold, .preferenceMisses, .overduePasses, .unitBase, .earlyEndPermitted,
    .noticeLineEnable, .dataWait]

/-- A setting from its code, 1 to 9 (10.8). -/
def settingOfCode (n : Nat) : Option Setting := if n = 0 then none else settingTable[n - 1]?

/-- A string setting (R68). -/
def Setting.ofString : Setting → Bool
  | .retryLimit | .autoSpare | .suspectThreshold | .preferenceMisses | .overduePasses => true
  | _ => false

/-- A setting that is off or on (R68). -/
def Setting.isSwitch : Setting → Bool
  | .autoSpare | .earlyEndPermitted | .noticeLineEnable => true
  | _ => false

/-- A DATA_WAIT unit from its code (10.8). -/
def unitOfCode : Nat → Option WaitUnit
  | 1 => some .ms1
  | 2 => some .ms10
  | 3 => some .ms100
  | 4 => some .s1
  | _ => none

/-- One setting of a SET SETTINGS list as written: none when it is refused (R68, R69). -/
def settingItem? (code value unit : Nat) : Option SettingItem :=
  match settingOfCode code with
  | none => none
  | some t =>
    if t.isSwitch ∧ 1 < value then none
    else if t = .dataWait then
      match unitOfCode unit with
      | some u => some { setting := t, value := value, unit := some u }
      | none => none
    else some { setting := t, value := value, unit := none }

/-- The settings of a SET SETTINGS list, three octets each; none when any is refused. -/
def settingItems? : List Octet → Option (List SettingItem)
  | [] => some []
  | a :: b :: c :: rest =>
    match settingItem? a.toNat b.toNat c.toNat, settingItems? rest with
    | some x, some xs => some (x :: xs)
    | _, _ => none
  | _ => none

/-- No element stands twice in a list. -/
def noRepeat {α : Type} [DecidableEq α] : List α → Bool
  | [] => true
  | x :: xs => !xs.contains x && noRepeat xs

/-- The notice kinds a COLLECT NOTICES selects (R166); none when a code is unknown or one kind stands twice. -/
def selection? (codes : List Octet) : Option (List NoticeKind) :=
  match codes.mapM fun c => noticeOfCode c.toNat with
  | some ks => if noRepeat ks then some ks else none
  | none => none

/-- The length of a window as taken (R170). -/
def windowLength : Nat → Option Nat
  | 1 => some 1
  | 2 | 3 => some 2
  | 4 | 5 | 6 | 7 => some 4
  | 8 => some 8
  | _ => none

/-- The two-valued codes of SET WINDOW (10.8). -/
def accessOfCode : Nat → Option Access
  | 1 => some .write
  | 2 => some .any
  | _ => none
def actionOfCode : Nat → Option Action
  | 1 => some .stopBefore
  | 2 => some .reportAfter
  | _ => none
def scopeOfCode : Nat → Option Scope
  | 1 => some .allPorts
  | 2 => some .otherPorts
  | _ => none

/-- The operands of SET WINDOW (R170): the length as taken and the base track recorded. -/
def windowOperands? (f : RequestFrame) : Option Operands :=
  match windowNumber? (f.one 0), windowLength (f.one 3), accessOfCode (f.one 4), actionOfCode (f.one 5),
      scopeOfCode (f.one 6) with
  | some w, some l, some a, some b, some c =>
    if f.two 1 ≤ 8959 then some (.window w (f.two 1 - f.two 1 % l) l a b c) else none
  | _, _, _, _, _ => none

/-- The track a track-upkeep frame names. -/
def RequestFrame.trackAddr (f : RequestFrame) : Addr := { cyl := f.two 0, head := f.one 2, sector := 0 }

/-- The operands of FORMAT TRACK (R48, R135): the track in range, not the label track, and a state that suits its region. -/
def formatOperands? (f : RequestFrame) : Option Operands :=
  let c := f.two 0
  let h := f.one 2
  let a : Addr := { cyl := c, head := h, sector := 0 }
  if 568 < c ∨ 15 < h ∨ (c = 568 ∧ h = 0) then none
  else if f.one 3 = 1 ∧ (c ≤ 559 ∨ c = 568) then some (.format a false)
  else if f.one 3 = 4 ∧ 560 ≤ c ∧ c ≤ 567 then some (.format a true)
  else none

/-- The operands of a kind with parameters of its length, in range (R48 step 1); none makes the request FIELD_INVALID. -/
def operands? (k : Kind) (f : RequestFrame) : Option Operands :=
  let n := f.params.length
  match k with
  | .readBlocks | .writeBlocks | .writeAndCheck | .checkBlocks =>
    if n = 6 ∧ f.two 4 ≤ 1024 then
      some (.data { cyl := f.two 0, head := f.one 2, sector := f.one 3 } (f.two 4))
    else none
  | .position => if n = 2 ∧ f.two 0 ≤ 568 then some (.cylinder (f.two 0)) else none
  | .spareTrack | .returnAlternate =>
    if n = 3 ∧ f.two 0 ≤ 559 ∧ f.one 2 ≤ 15 then
      some (.track { cyl := f.two 0, head := f.one 2, sector := 0 })
    else none
  | .formatTrack => if n = 4 then formatOperands? f else none
  | .cancel => if n = 1 ∧ f.one 0 ≤ 15 then some (.target (f.one 0)) else none
  | .setWindow => if n = 7 then windowOperands? f else none
  | .clearWindow => if n = 1 then (windowNumber? (f.one 0)).map .windowNumber else none
  | .collectNotices =>
    if 1 ≤ n ∧ n ≤ 11 ∧ f.one 0 ≤ 62 then (selection? f.params.tail).map fun ks => .collect (f.one 0) ks else none
  | .testNotice => if n = 1 then (portOfCode (f.one 0)).map .port else none
  | .setSettings =>
    if n ≤ 27 then
      match settingItems? f.params with
      | some xs => if noRepeat (xs.map (·.setting)) then some (.settings xs) else none
      | none => none
    else none
  | _ => if n = 0 then some .empty else none

/-- Whether an address lies in the ranges of R4 step 1. -/
def addressValid (a : Addr) : Bool := decide (a.cyl ≤ 568) && decide (a.head ≤ 15) && decide (a.sector ≤ 23)

/-- Whether the first and last blocks lie in the region a request may reach (R4 step 2). -/
def extentValid (raw : Bool) (a : Addr) (count : Nat) : Bool :=
  decide (count = 0) ||
    (if raw then decide (blockOf a + count - 1 ≤ 218495)
    else decide (a.cyl ≤ 559) && decide (blockOf a + count - 1 ≤ 215039))

/-- Check 4 (R48): the operands, or the detail of the first failing step. -/
def checkFields (k : Kind) (f : RequestFrame) : Except Detail Operands :=
  if flagsAllowed k f = false ∨ (k.armUsing = true ∧ 3 < f.priority.toNat) then .error .fieldInvalid
  else
    match operands? k f with
    | none => .error .fieldInvalid
    | some (.data a n) =>
      if addressValid a = false then .error .addressInvalid
      else if extentValid f.raw a n = false then .error .extentInvalid
      else .ok (.data a n)
    | some o => .ok o

/-- The count of a data request's frame, as written; 0 of other kinds and of frames too short to hold one (R67). -/
def frameCount (k : Kind) (f : RequestFrame) : Nat :=
  if k.isData ∧ f.params.length = 6 then f.two 4 else 0

/-- The address and count the operands give. -/
def Operands.addr : Operands → Addr
  | .data a _ => a
  | .cylinder c => { cyl := c, head := 0, sector := 0 }
  | .track a => a
  | .format a _ => a
  | _ => { cyl := 0, head := 0, sector := 0 }

/-- The extent of a request (R5). -/
def Operands.extent : Operands → Option (Nat × Nat)
  | .data a n => dataExtent (blockOf a) n
  | .track a => some (trackOf a.cyl a.head, trackOf a.cyl a.head)
  | .format a _ => some (trackOf a.cyl a.head, trackOf a.cyl a.head)
  | _ => none

end Sys2Proof.Machine
end

