-- ==== Sys2Proof/Machine/Frames.lean ====
section
/-! DEFINITION. The frames a port sends, octet by octet (10.8), and the frame check of received frames (R178). -/

namespace Sys2Proof.Machine

/-- A number in one, two or four octets. -/
def o1 (n : Nat) : List Octet := octetsOf 1 n
def o2 (n : Nat) : List Octet := octetsOf 2 n
def o4 (n : Nat) : List Octet := octetsOf 4 n

/-- A yes or no as one octet. -/
def oBool (b : Bool) : List Octet := [if b then 1 else 0]

/-- A field that may be absent (10.8). -/
def oOpt {α : Type} (f : α → List Octet) : Option α → List Octet
  | none => [0]
  | some x => 1 :: f x

/-- A list preceded by its count in two octets (10.8). -/
def oList {α : Type} (f : α → List Octet) (xs : List α) : List Octet := o2 xs.length ++ xs.flatMap f

/-- An enumerated value coded by its place, from 1, in a list (10.8). -/
def oPlace {α : Type} [DecidableEq α] (table : List α) (x : α) : List Octet := o1 (table.idxOf x + 1)

def portCode (p : Port) : Nat := (portIndex p).val + 1
def stateTable : List DriveState := [.absent, .stopped, .starting, .loading, .ready, .faulted, .stopping]
def motorTable : List Motor := [.off, .accelerating, .atSpeed, .coasting]
def armTable : List ArmState := [.idle, .seeking, .recalibrating, .onCylinder]
def reasonTable : List AttnReason := [.packReady, .portReset, .stringReset, .faultCleared]
def faultTable : List FaultKind := [.seekTimeout, .recalTimeout, .writeFault, .repeatedSeekCheck, .spinTimeout]
def labelTable : List LabelState := [.current, .pending, .stale]
def originTable : List Origin := [.factory, .field, .auto, .adopted]
def unitTable : List WaitUnit := [.ms1, .ms10, .ms100, .s1]
def accessTable : List Access := [.write, .any]
def actionTable : List Action := [.stopBefore, .reportAfter]
def scopeTable : List Scope := [.allPorts, .otherPorts]

/-- The details of each class in the order R66 names them (10.8). -/
def detailTable : OutcomeClass → List Detail
  | .done => [.none, .recovered, .trackSpared, .earlyEnd, .noMotion, .notHeld]
  | .refused =>
    [.tagInUse, .kindInvalid, .unitUnknown, .fieldInvalid, .addressInvalid, .extentInvalid, .maintNotPermitted,
      .tableFull, .driveFaulted, .driveNotReady, .driveReserved, .attentionPending, .writeProtected, .windowStop,
      .windowOwned, .trackInMap, .faultNotCollected, .notFaulted, .tagUnknown, .notCancellable]
  | .ended =>
    [.dataCheck, .voidSector, .headerCheck, .seekCheck, .writeCheck, .compareMismatch, .driveFault, .spareExhausted,
      .spareMapFault, .dataLate, .portOverrun, .dataFrameError, .writeProtected]
  | .notRun => [.chainBroken]
  | .abandoned => [.cancelled, .driveStopped]
  | .deferred => []

def classTable : List OutcomeClass := [.done, .refused, .ended, .notRun, .abandoned, .deferred]

/-- The detail code (10.8). -/
def detailCode (c : OutcomeClass) (d : Detail) : Nat := if c = .deferred then 0 else (detailTable c).idxOf d + 1

/-- The qualifier octet (10.8). -/
def Qualifier.octets : Qualifier → List Octet
  | .none => [0]
  | .driveState s => oPlace stateTable s
  | .port p => o1 (portCode p)
  | .reason r => oPlace reasonTable r
  | .window w => o1 w

def addrOctets (a : Addr) : List Octet := o2 a.cyl ++ o1 a.head ++ o1 a.sector

def ownerOctets (x : Port × Nat) : List Octet := o1 (portCode x.1) ++ o1 x.2

def FaultRecord.octets (r : FaultRecord) : List Octet :=
  oPlace faultTable r.kind ++ o2 r.curCyl ++ o2 r.tgtCyl ++ oOpt ownerOctets r.owner ++ oBool r.collected

def DeferredRec.octets (r : DeferredRec) : List Octet :=
  o1 r.tag ++ addrOctets r.addr ++ oPlace (detailTable .ended) r.detail ++ o1 r.failures ++ o2 r.residual

def StatusRec.octets (r : StatusRec) : List Octet :=
  oPlace stateTable r.state ++ oPlace motorTable r.motor ++ oPlace armTable r.arm ++ o2 r.curCyl ++ o2 r.tgtCyl
    ++ oBool r.packSeated ++ oBool r.doorClosed ++ oBool r.writeProtect ++ oBool r.writeFault ++ oBool r.startStrap
    ++ oBool r.inStartList ++ oOpt o4 r.serial ++ oPlace labelTable r.labelState ++ o2 r.generation
    ++ o1 r.mapEntries ++ o1 r.freeAlternates
    ++ oOpt (fun f => oPlace faultTable f.1 ++ oBool f.2) r.fault
    ++ oOpt (fun p => o1 (portCode p)) r.owner ++ oOpt (oPlace reasonTable) r.attention ++ o1 r.queueLength
    ++ o1 r.recoveredCount ++ oOpt DeferredRec.octets r.deferred

/-- An entry of the spare-map list (R137). DESIGN CHOICE (log entry 28): neither R137 nor 10.8 gives an entry a field that tells
its kind, and the model sends a leading octet, 1 for an assignment, 2 for a retirement. -/
def MapEntry.octets : MapEntry → List Octet
  | .assign h k o => o1 1 ++ o2 (cylOf h) ++ o1 (headOf h) ++ o1 k ++ oPlace originTable o
  | .retire k => o1 2 ++ o1 k

def SpareMapList.octets (r : SpareMapList) : List Octet :=
  oPlace labelTable r.labelState ++ o2 r.generation ++ oBool r.armed ++ oBool r.updateQueued ++ o1 r.entryCount
    ++ o1 r.freeAlternates ++ oList MapEntry.octets r.entries

def Subject.octets : Subject → List Octet
  | .none => [0]
  | .drive d => 1 :: o1 d.val
  | .window w => 1 :: o1 w.val

def NoticeDetails.octets : NoticeDetails → List Octet
  | .none => [0]
  | .reason r => 1 :: oPlace reasonTable r
  | .request p tag track => 1 :: (o1 (portCode p) ++ o1 tag ++ o2 track)

def Notice.octets (n : Notice) : List Octet :=
  oPlace noticeKinds n.kind ++ n.subject.octets ++ o1 n.occurrences ++ n.details.octets

def SettingItem.octets (x : SettingItem) : List Octet :=
  oPlace settingTable x.setting ++ o1 x.value ++ match x.unit with
    | some u => oPlace unitTable u
    | none => []

def windowOctets (x : Nat × Option Window) : List Octet :=
  o1 x.1 ++ match x.2 with
    | none => [1]
    | some w => 2 :: (o1 (portCode w.owner) ++ o1 w.drive.val ++ o2 w.base ++ o1 w.length ++ oPlace accessTable w.access
        ++ oPlace actionTable w.action ++ oPlace scopeTable w.scope)

/-- The identity body (R183). DESIGN CHOICE (log entry 39): 10.8 names no coding for a set, and the drives present are sent as a
list, a count and the drive numbers in ascending order. -/
def Identity.octets (r : Identity) : List Octet :=
  o2 r.model ++ o1 (portCode r.port) ++ oBool r.maintStrap ++ o1 r.baseStrap ++ oList (fun d => o1 d.val) r.present
    ++ o1 r.paths ++ o1 r.segments ++ o1 r.windows ++ o2 r.frameErrors ++ o2 r.unknownTags ++ o2 r.overruns

/-- The body of a report (10.8). -/
def Body.octets : Body → List Octet
  | .none => []
  | .status r => r.octets
  | .spareMap r => r.octets
  | .faultRecord r => r.octets
  | .notices taken left => oList Notice.octets taken ++ o1 left
  | .settings xs => if xs.isEmpty then [] else oList SettingItem.octets xs
  | .windows xs => oList windowOctets xs
  | .identity r => r.octets
  | .deferred r => r.octets

/-- Octets closed by their frame check (R178). -/
def withCheck (os : List Octet) : List Octet := os ++ checkOctets (checkCode os)

/-- A report frame (10.8). -/
def Report.frame (r : Report) : List Octet :=
  let body := r.body.octets
  let marks := (if r.duplicate then 128 else 0) + (if r.failing.isSome then 64 else 0)
    + (if body.isEmpty then 0 else 32)
  withCheck
    (o1 2 ++ o1 r.tag ++ o1 r.kindCode ++ oPlace classTable r.cls ++ o1 (detailCode r.cls r.detail)
      ++ r.qualifier.octets ++ o1 marks ++ o2 r.residual
      ++ (match r.failing with
          | some a => addrOctets a
          | none => [0, 0, 0, 0])
      ++ o2 r.recoveredBlocks ++ o1 r.recoveredCount ++ o2 body.length ++ body)

/-- The frame a port sends (10.8). -/
def OutFrame.octets : OutFrame → List Octet
  | .wanted w => withCheck (o1 5 ++ o1 w.tag ++ o2 w.first ++ o1 w.blocks)
  | .report r => r.frame
  | .dataIn _ tag index block => withCheck (o1 4 ++ o1 tag ++ o2 index ++ block)

/-! ### Received frames (R178) -/

/-- Whether a frame's check agrees (R178). -/
def frameCheckGood (os : List Octet) : Bool :=
  decide (3 ≤ os.length)
    && decide (os.drop (os.length - 2) = checkOctets (checkCode (os.take (os.length - 2))))

/-- Whether a frame has the length of its kind (10.8). -/
def frameLengthGood (os : List Octet) : Bool :=
  match (octetAt os 0).toNat with
  | 1 => decide (9 ≤ os.length) && decide (os.length = 9 + (octetAt os 6).toNat)
  | 3 => decide (os.length = 518)
  | 6 => decide (os.length = 3)
  | _ => false

/-- A frame that R178 discards: a failed check, a kind no host sends, or a wrong length. -/
def isBadFrame (os : List Octet) : Bool := !(frameCheckGood os && frameLengthGood os)

end Sys2Proof.Machine
end

