-- ==== Sys2Proof/Machine/Adapter.lean ====
section
/-! DEFINITION. The port adapters at work (R102 to R108, R180 to R182): the choice of the next frame, frames sent in full,
data-out frames, data-wait timers, and the endings a port side gives a request. -/

namespace Sys2Proof.Machine

/-! ### The sending direction (R181) -/

/-- The lowest undelivered block of a read, when it is in its half (R102). -/
def Request.dataIn? (r : Request) : Option OutFrame :=
  if r.kind = .readBlocks ∧ r.detached = false ∧ r.blocksDone < r.nextBlock then
    ((r.half (decide (r.blocksDone / 12 % 2 = 1))).blocks[r.blocksDone % 12]?).map fun b =>
      .dataIn r.rid r.tag r.blocksDone b
  else none

/-- The frame a free sending direction begins (R181), with the port's record after it is begun. -/
def State.nextFrame (s : State) (p : Port) : Option (OutFrame × PortRec) :=
  let pr := s.port p
  match pr.wanted with
  | w :: rest => some (.wanted w, { pr with wanted := rest })
  | [] =>
    match pr.reports with
    | r :: _ => some (.report r, pr)
    | [] =>
      if pr.hold then none
      else ((s.entriesOf p).findSome? Request.dataIn?).map fun f => (f, pr)

/-- The adapter begins the next frame when its sending direction is free (R181) and the port is ONLINE (R177). -/
def State.pump (s : State) (p : Port) : State :=
  let pr := s.port p
  if pr.online ∧ pr.sending.isNone then
    match s.nextFrame p with
    | some (f, pr') => s.onPort p fun _ => { pr' with sending := some f }
    | none => s
  else s

/-- The end of an event: frames withdrawn that can no longer be of use, and every free direction's next frame begun. -/
def State.flush (s : State) : State := forPorts State.pump s.withdrawWanted

/-- An event that has taken `s` to `t`: what follows in it, and its end. -/
def State.close (s t : State) : State := (s.settle t).flush

/-! ### Reports of immediate requests -/

/-- A report handed over, and begun if the direction is free. -/
def State.answer (s : State) (p : Port) (r : Report) : State := (s.queueReport p r).pump p

/-! ### Endings from the port side (R104 to R106) -/

/-- The timers of a request stopped. -/
def Request.stopTimers (r : Request) : Request :=
  { r with half0 := { r.half0 with timer := none }, half1 := { r.half1 with timer := none }, readTimer := none }

/-- A port-side ending of a request that takes host data (R104, R105): held while a block or an operation is in progress,
set aside when a cancel pends, made at once otherwise. -/
def State.portEnding (s : State) (rid : Nat) (e : Ending) : State :=
  match s.request? rid with
  | none => s
  | some r =>
    if r.cancelPending ∨ r.held.isSome = true then s
    else if r.state = .transferring ∨ r.state = .sparing then
      s.putRequest { r.stopTimers with held := some e }
    else s.conclude rid e

/-- The first block not received good (R67); when every block has arrived, a free value (log entry 5). -/
def State.firstMissing (s : State) (r : Request) : Addr :=
  if r.arrived < r.count then r.blockAddr r.arrived else Config.frameErrorAddr s.freeCount

/-- ENDED DATA_FRAME_ERROR (R104). -/
def State.frameErrorEnding (s : State) (r : Request) : State :=
  State.portEnding { s with freeCount := s.freeCount + 1 } r.rid
    (Ending.at .ended .dataFrameError (s.firstMissing r))

/-! ### Data-out frames (R104) -/

/-- Whether a block index is the next of a round asked for (R104, R182). -/
def Request.accepts (r : Request) (index : Nat) : Bool :=
  let h := r.half (decide (r.arrived / 12 % 2 = 1))
  decide (index = r.arrived) && decide (r.arrived < r.count) && decide (h.state = .wanted) && h.asked
    && decide (h.round = r.arrived / 12)

/-- A block placed in its half (R104): FULL at the round's last, its timer stopped (R105). -/
def Request.place (r : Request) (b : Block) : Request :=
  let one := decide (r.arrived / 12 % 2 = 1)
  let h := r.half one
  let blocks := h.blocks ++ [b]
  let full := decide (blocks.length = roundSize r.count h.round)
  let h := { h with
    blocks := blocks, state := if full then .full else h.state, timer := if full then none else h.timer }
  { r.setHalf one h with arrived := r.arrived + 1 }

/-- A data-out frame for an outstanding request of its port (R104, R108). -/
def State.dataOutFor (s : State) (r : Request) (index : Nat) (b : Block) : State :=
  if r.accepts index then
    let r := r.place b
    let t := s.putRequest r
    if r.arrived = r.count ∧ r.earlyEffective ∧ r.cancelPending = false then s.close (t.earlyReport r.rid)
    else t
  else s.close (s.frameErrorEnding r)

/-- A good data-out frame at a port (R104). -/
def State.dataOutFrame (s : State) (p : Port) (tag : Octet) (index : Nat) (b : Block) : State :=
  match s.tagged? p tag.toNat with
  | none => s.onPort p PortRec.countUnknownTag
  | some r =>
    if r.takesData = false ∨ r.earlyEnded = true then s.onPort p PortRec.countFrameError
    else if r.held.isSome then s.onPort p PortRec.countUnknownTag
    else s.dataOutFor r index b

/-- The tag a data-out frame names (R178): none where the frame has no tag octet ahead of its two octets of frame check
(log entry 20). -/
def frameTag? (os : List Octet) : Option Nat := if 4 ≤ os.length then some (octetAt os 1).toNat else none

/-- A discarded frame (R178): counted, and a write it names by tag ends when it was a data-out frame with a failed
check. -/
def State.badFrameAt (s : State) (p : Port) (os : List Octet) : State :=
  let t := s.onPort p PortRec.countFrameError
  if frameCheckGood os = false ∧ (octetAt os 0).toNat = 3 then
    match (frameTag? os).bind (t.tagged? p) with
    | some r => if r.takesData ∧ r.earlyEnded = false ∧ r.held.isNone = true then s.close (t.frameErrorEnding r) else t
    | none => t
  else t

/-! ### Frames sent in full -/

/-- The half of a read after a delivery (R102): a DRAINING half whose round, that of the block delivered, has nothing left
becomes EMPTY. -/
def Request.drained (r : Request) : Request :=
  let ρ := (r.blocksDone - 1) / 12
  let one := decide (ρ % 2 = 1)
  let h := r.half one
  if h.state = .draining ∧ r.blocksDone = roundLast r.count ρ + 1 then
    r.setHalf one { h with state := .empty, blocks := [] }
  else r

/-- A read's block delivered (R102, R109, R146). -/
def State.deliver (s : State) (rid index : Nat) : State :=
  match s.request? rid with
  | none => s
  | some r =>
    if r.detached ∨ r.blocksDone ≠ index then s
    else
      let marked := r.marks.contains index
      let q := { r with
        blocksDone := index + 1, marks := r.marks.filter (· != index)
        recovered := if marked then r.recovered + 1 else r.recovered }
      let q := q.drained
      let s := s.putData r q
      if q.blocksDone = q.count ∧ q.cancelPending = false then s.conclude rid q.doneEnding else s

/-- A data-wanted frame sent in full (R105, R182): the round is asked for and its half's timer starts. -/
def State.wantedSent (s : State) (w : WantedFrame) : State :=
  match s.request? w.rid with
  | none => s
  | some r =>
    let one := decide (w.first / 12 % 2 = 1)
    let h := r.half one
    if h.state = .wanted ∧ h.round = w.first / 12 ∧ r.held.isNone ∧ r.detached = false then
      s.putRequest (r.setHalf one { h with asked := true, timer := (s.port r.port).settings.waitTimer })
    else s

/-! ### Timers -/

/-- Expiry of the data-wait timer of a half (R105). -/
def State.waitExpiry (s : State) (r : Request) (one : Bool) : State :=
  match (r.half one).timer with
  | none => s
  | some _ =>
    s.close (State.portEnding (s.putRequest (r.setHalf one { r.half one with timer := none })) r.rid
      (Ending.at .ended .dataLate (r.blockAddr r.arrived)))

/-- Expiry of a read's timer (R106). -/
def State.readExpiry (s : State) (r : Request) : State :=
  match r.readTimer with
  | none => s
  | some _ =>
    let t := s.putRequest { r with readTimer := none }
    if r.cancelPending then t else s.close (t.conclude r.rid (Ending.make .ended .portOverrun))

/-! ### Request frames -/

/-- Whether a port has room for one more report (R180). -/
def State.hasRoom (s : State) (p : Port) : Bool :=
  decide ((s.port p).reports.length + s.outstandingOf p < Config.reportRoom)

/-- A request frame with no room for its report is discarded (R180). -/
def State.overrun (s : State) (p : Port) : State := (s.onPort p PortRec.countOverrun).post p .linkOverrun .none .none

/-- The drive a unit is mapped to through the port's unit base (R179). -/
def State.mapUnit (s : State) (p : Port) (u : Nat) : Option Drive :=
  let base := (s.port p).settings.unitBase
  if h : base ≤ u ∧ u - base < 8 then some ⟨u - base, h.2⟩ else none

end Sys2Proof.Machine
end

