-- ==== Sys2Proof/Machine/Director.lean ====
section
/-! DEFINITION. The request director at arrival (R44 to R56): the fourteen checks in their order, the refusals and what
they change, chain members, and the acceptance of table-entry requests. -/

namespace Sys2Proof.Machine

/-- Why a request is turned away at arrival (R47, R40, R135). -/
inductive Denial where
  | tagInUse | kindInvalid | unitUnknown
  | field (d : Detail)
  | maintNotPermitted | memberDrive | tableFull
  | driveFaulted
  | notReady (st : DriveState)
  | reserved (d : Drive) (owner : Port)
  | attention (d : Drive) (r : AttnReason)
  | deferred (d : Drive) (r : DeferredRec)
  | writeProtected
  | windowStop (w : Fin 4) (owner : Port) (track : Nat)
  | trackInMap
  | clear (d : Detail)
  deriving DecidableEq, Repr, Inhabited

/-- The detail of a denial (R47). -/
def Denial.detail : Denial → Detail
  | .tagInUse => .tagInUse
  | .kindInvalid => .kindInvalid
  | .unitUnknown => .unitUnknown
  | .field d => d
  | .maintNotPermitted => .maintNotPermitted
  | .memberDrive => .fieldInvalid
  | .tableFull => .tableFull
  | .driveFaulted => .driveFaulted
  | .notReady _ => .driveNotReady
  | .reserved .. => .driveReserved
  | .attention .. => .attentionPending
  | .deferred .. => .none
  | .writeProtected => .writeProtected
  | .windowStop .. => .windowStop
  | .trackInMap => .trackInMap
  | .clear d => d

/-- The class of a denial: DEFERRED at check 12, REFUSED elsewhere. -/
def Denial.cls : Denial → OutcomeClass
  | .deferred .. => .deferred
  | _ => .refused

/-- The qualifier of a denial (R65). -/
def Denial.qualifier : Denial → Qualifier
  | .notReady st => .driveState st
  | .reserved _ p => .port p
  | .attention _ r => .reason r
  | .windowStop w _ _ => .window w.val
  | _ => .none

/-- The body of a denial (R65). -/
def Denial.body : Denial → Body
  | .deferred _ r => .deferred r
  | _ => .none

/-- The drive a request's unit names, when it is mapped and not ABSENT (R47 check 3, R179). -/
def State.unitDrive? (s : State) (p : Port) (f : RequestFrame) : Option Drive :=
  match s.mapUnit p f.unit.toNat with
  | some d => if (s.drive d).state = .absent then none else some d
  | none => none

/-- Check 5 (R47): maintenance kinds, RAW, and SET SETTINGS naming a string setting need the strap. -/
def needsStrap (k : Kind) (f : RequestFrame) (o : Operands) : Bool :=
  k.maintenance || f.raw || match o with
    | .settings xs => xs.any (·.setting.ofString)
    | _ => false

/-- The member the port's marker names, when the request is a chain member (R54). -/
def State.predecessor? (s : State) (p : Port) (k : Kind) : Option ChainMark :=
  if k.tableEntry then (s.port p).marker else none

/-- Whether a data request of count 0 ends without an entry (R50), or a member of a broken chain does (R54). -/
def takesNoEntry (k : Kind) (o : Operands) (m : Option ChainMark) : Bool :=
  match m with
  | some m =>
    match m.standing with
    | .endedOther => true
    | .unended => false
    | .endedDone => match o with
      | .data _ 0 => k.isData
      | _ => false
  | none => match o with
    | .data _ 0 => k.isData
    | _ => false

/-- Check 7 (R47, R51). -/
def State.tableIsFull (s : State) (p : Port) : Bool :=
  decide (Config.portEntries ≤ (s.entriesOf p).length) || decide (Config.tableEntries ≤ s.table.length)

/-- The stop-before windows that stop a request (R174), in number order. -/
def State.stoppingWindows (s : State) (p : Port) (d : Drive) (k : Kind) (passWatch : Bool) (o : Operands) :
    List (Fin 4 × Window × Nat) :=
  let ms := s.matching .stopBefore p d k o.extent
  if passWatch && ms.all (fun m => m.2.1.owner == p) then [] else ms

/-- Checks 8 to 14 (R47) of a request for a drive, and the tests of FORMAT TRACK (R135) and CLEAR FAULT (R40) after them. -/
def State.driveChecks (s : State) (p : Port) (d : Drive) (k : Kind) (f : RequestFrame) (o : Operands) : Option Denial :=
  let dr := s.drive d
  if k.driveUsing ∧ k ≠ .clearFault ∧ dr.state = .faulted then some .driveFaulted
  else if k.driveUsing ∧ k ≠ .clearFault ∧ k ≠ .startDrive
      ∧ (dr.state = .stopped ∨ dr.state = .starting ∨ dr.state = .loading ∨ dr.state = .stopping) then
    some (.notReady dr.state)
  else
    match (if k.driveUsing ∧ k ≠ .seize then dr.unit.owner.filter (· != p) else none) with
    | some q => some (.reserved d q)
    | none =>
      match (if k.driveUsing then ofPort dr.unit.attention p else none) with
      | some r => some (.attention d r)
      | none =>
        match (if k.driveUsing then ofPort dr.deferred p else none) with
        | some x => some (.deferred d x)
        | none =>
          if k.writeClass ∧ dr.writeProtect = true then some .writeProtected
          else
            match s.stoppingWindows p d k f.passWatch o with
            | (w, win, t) :: _ => some (.windowStop w win.owner t)
            | [] =>
              if k = .formatTrack ∧ trackInMap dr.map.entries (trackOf o.addr.cyl o.addr.head) = true then
                some .trackInMap
              else if k = .clearFault then dr.clearRefusal.map .clear
              else none

/-- The arrival checks in their order (R47): why the request is turned away, or its drive and operands. Kinds that carry
no unit are given drive 0, which nothing reads. -/
def State.checks (s : State) (p : Port) (k : Kind) (f : RequestFrame) : Except Denial (Drive × Operands) :=
  if (s.tagged? p f.tagNumber).isSome then .error .tagInUse
  else
    match (if k.carriesUnit then s.unitDrive? p f else some 0) with
    | none => .error .unitUnknown
    | some d =>
      match checkFields k f with
      | .error e => .error (.field e)
      | .ok o =>
        let m := s.predecessor? p k
        if needsStrap k f o ∧ (s.port p).maintStrap = false then .error .maintNotPermitted
        else if (match m with
            | some m => decide (m.drive ≠ d)
            | none => false) then .error .memberDrive
        else if k.tableEntry ∧ takesNoEntry k o m = false ∧ s.tableIsFull p = true then .error .tableFull
        else
          match (if k.carriesUnit then s.driveChecks p d k f o else none) with
          | some x => .error x
          | none => .ok (d, o)

/-- The report of a request turned away (R65, R67). DESIGN CHOICE (log entry 37): it carries no failing address, WRITE_PROTECTED
at check 13 among them, since no leg exists at arrival whose first block R67 could name. The recovered count is the one kept
for the drive the unit maps to (R179), an ABSENT one among them (R148); log entry 27 says what a data request carries whose
unit maps to none. -/
def denialReport (s : State) (p : Port) (kindCode : Nat) (k : Option Kind) (f : RequestFrame) (x : Denial) : Report :=
  { tag := f.tagNumber, duplicate := decide (x = .tagInUse), kindCode := kindCode, cls := x.cls, detail := x.detail
    qualifier := x.qualifier
    residual := match k with
      | some k => frameCount k f
      | none => 0
    failing := none, recoveredBlocks := 0
    recoveredCount := match k, s.mapUnit p f.unit.toNat with
      | some k, some d => if k.isData then s.recoveredCount p d else 0
      | _, _ => 0
    body := x.body }

/-- What a refusal changes (R49). -/
def State.denialEffect (s : State) (p : Port) (f : RequestFrame) : Denial → State
  | .reserved d _ =>
    s.onDrive d fun dr => { dr with unit := { dr.unit with wanted := setOfPort dr.unit.wanted p true } }
  | .attention d _ => s.clearAttention d p
  | .deferred d _ => s.clearDeferred p d
  | .windowStop w owner t => s.post owner .windowMatch (.window w) (.request p f.tagNumber t)
  | _ => s

/-- Whether a refusal closes the port's open chain (R49): at checks 1 and 2 always, else for table-entry kinds. -/
def Denial.closesChain (x : Denial) (k : Option Kind) : Bool :=
  match x with
  | .tagInUse | .kindInvalid => true
  | _ => match k with
    | some k => k.tableEntry
    | none => true

/-- A request turned away (R44, R49): its report, and what the refusal changes. -/
def State.deny (s : State) (p : Port) (kindCode : Nat) (k : Option Kind) (f : RequestFrame) (x : Denial) : State :=
  let rep := denialReport s p kindCode k f x
  let s := s.denialEffect p f x
  let s := if x.closesChain k then s.onPort p fun pr => { pr with marker := none } else s
  s.answer p rep

/-- A report of a request answered at once, with no residual and no failing address. -/
def plainReport (k : Kind) (f : RequestFrame) (cls : OutcomeClass) (d : Detail) (q : Qualifier) (body : Body) : Report :=
  { tag := f.tagNumber, duplicate := false, kindCode := k.code, cls := cls, detail := d, qualifier := q, residual := 0
    failing := none, recoveredBlocks := 0, recoveredCount := 0, body := body }

/-- DONE, detail NONE, of an immediate request. -/
def doneReport (k : Kind) (f : RequestFrame) (body : Body) : Report := plainReport k f .done .none .none body

/-- A request frame as the adapter takes it (R177, R180) and the director checks it (R44, R47): OFFLINE takes nothing, no
room discards it, a failed check refuses it, and `accept` carries out an accepted one. -/
def State.arrival (s : State) (p : Port) (k : Kind) (f : RequestFrame) (accept : State → Drive → Operands → State) :
    State :=
  if (s.port p).online = false then s
  else if s.hasRoom p = false then s.overrun p
  else
    match s.checks p k f with
    | .error x => s.deny p k.code (some k) f x
    | .ok (d, o) => accept s d o

/-! ### Table-entry requests (R50, R54) -/

/-- The standing of the chain member a request follows. -/
def State.memberStanding (s : State) (p : Port) : Option Standing := (s.port p).marker.map (·.standing)

/-- A new request record (R52). -/
def State.newRequest (s : State) (p : Port) (d : Drive) (k : Kind) (f : RequestFrame) (o : Operands) : Request :=
  let count := match o with
    | .data _ n => n
    | _ => 0
  { rid := s.nextOrder, port := p, tag := f.tagNumber, drive := d, kind := k
    chain := f.chain, earlyEnd := f.earlyEnd, passWatch := f.passWatch, raw := f.raw, compare := f.compare
    priority := f.priority.toNat, addr := o.addr, count := count
    formatUnassigned := match o with
      | .format _ u => u
      | _ => false
    extent := o.extent
    earlyEffective := f.earlyEnd && (s.port p).settings.earlyEndPermitted && decide (1 ≤ count)
      && decide (count ≤ 24)
    state := .queued, nextBlock := 0, blocksDone := 0, passes := 0, misses := 0, segments := none
    curHalf := false, half0 := Half.empty, half1 := Half.empty, arrived := 0, retries := 0, seekChecks := 0
    recovered := 0, failed := [], marks := [], pred := none, chainPrecedence := false, cancelPending := false
    earlyEnded := false, detached := false, windowMatch := none, failure := none, reachedArm := false
    spared := none, held := none, phase := .idle, checking := false, writePos := 0, trial := none, op := none
    label := none, format := none, readTimer := none }

/-- The open-chain marker after a member or an opening request is taken (R54). -/
def State.mark (s : State) (p : Port) (f : RequestFrame) (d : Drive) (member : Option Nat) (st : Standing) : State :=
  s.onPort p fun pr =>
    { pr with marker := if f.chain then some { member := member, drive := d, standing := st } else none }

/-- A request entered in the table (R50): its place in the arrival order, and the marker naming it. -/
def State.enter (s : State) (p : Port) (f : RequestFrame) (r : Request) : State :=
  State.mark { s with table := s.table ++ [r], nextOrder := s.nextOrder + 1 } p f r.drive (some r.rid) .unended

/-- The report of a request ended in its arrival event without an entry (R50, R54). -/
def arrivalReport (s : State) (r : Request) (cls : OutcomeClass) (d : Detail) : Report :=
  { tag := r.tag, duplicate := false, kindCode := r.kind.code, cls := cls, detail := d, qualifier := .none
    residual := r.count, failing := none, recoveredBlocks := 0
    recoveredCount := if r.kind.isData then s.recoveredCount r.port r.drive else 0, body := .none }

/-- The acceptance of a data request updates its port's recovered count for its drive (R148). -/
def State.noteClass (s : State) (r : Request) : State :=
  if r.kind.isData then s.acceptClass r.port r.drive r.kind.dataClass else s

/-- An arm-using request joins its drive's queue (R50, R73), and the drive is tested (R76). -/
def State.enqueue (s : State) (p : Port) (f : RequestFrame) (r : Request) : State :=
  ((s.enter p f r).testAfterJoin r.drive).flush

/-- A drive-control request takes an entry in CONTROL_WAIT and begins (R50). -/
def State.enterControl (s : State) (p : Port) (f : RequestFrame) (r : Request) : State :=
  let r := { r with state := .controlWait }
  match (s.enter p f r).beginControl r with
  | (t, none) => s.close t
  | (t, some e) => s.close (t.conclude r.rid e)

/-- A table-entry request that has passed the checks (R50, R54). -/
def State.acceptEntry (k : Kind) (p : Port) (f : RequestFrame) (s : State) (d : Drive) (o : Operands) : State :=
  let r := s.newRequest p d k f o
  match s.memberStanding p with
  | some .endedOther =>
    (s.mark p f d none .endedOther).answer p (arrivalReport s r .notRun .chainBroken)
  | some .unended =>
    let r := { r with state := .waitingChain, pred := (s.port p).marker.bind (·.member) }
    ((s.noteClass r).enter p f r).flush
  | st =>
    let s := s.noteClass r
    if k.isData ∧ r.count = 0 then
      (s.mark p f d none .endedDone).answer p (arrivalReport s r .done .noMotion)
    else if k.armUsing then s.enqueue p f { r with chainPrecedence := decide (st = some .endedDone) }
    else s.enterControl p f r

end Sys2Proof.Machine
end

