-- ==== Sys2Proof/Machine/Resets.lean ====
section
/-! DEFINITION. Sensing of spindles (R18, R19), power-on and the loss of power (R17, R71), the port reset (R72, R184) and
the string reset (R43, R71, R162, R185). -/

namespace Sys2Proof.Machine

/-- A drive whose spindle answers, as sensed: STOPPED, motor OFF, levels and start strap as read (R19). -/
def DriveRec.sensed (dr : DriveRec) (x : SpindleSense) : DriveRec :=
  let pack := match x.pack with
    | .same => dr.pack
    | .none => Option.none
    | .seated q => some q
  { dr with
    state := .stopped, motor := .off, arm := .idle, packSeated := pack.isSome, doorClosed := x.doorClosed
    writeProtect := x.writeProtect, writeFault := x.writeFault, startStrap := x.startStrap, pack := pack }

/-- A drive found with no spindle (R19, R162): ABSENT, its serial absent, its map discarded, its unit record as at
power-on. -/
def DriveRec.foundAbsent (dr : DriveRec) : DriveRec :=
  { dr.discardMap with state := .absent, serial := none, unit := UnitRec.initial }

/-! ### Power -/

/-- A drive record at power-on (R18). -/
def powerOnDrive (old : DriveRec) (x : SpindleSense) : DriveRec :=
  if x.present then { DriveRec.initial with pack := old.pack }.sensed x
  else { DriveRec.initial with pack := old.pack }

/-- The eight drive records at power-on. -/
def State.powerOnDrives (s : State) (xs : Vector SpindleSense 8) : Vector DriveRec 8 :=
  let f := fun (d : Fin 8) => powerOnDrive s.drives[d] xs[d]
  #v[f 0, f 1, f 2, f 3, f 4, f 5, f 6, f 7]

/-- The four port records at power-on: OFFLINE, the straps kept, the hold lines as sensed (R177). -/
def State.powerOnPorts (s : State) (hold : Vector Bool 4) : Vector PortRec 4 :=
  let f := fun (i : Fin 4) => PortRec.initial s.ports[i].maintStrap s.ports[i].baseStrap hold[i]
  #v[f 0, f 1, f 2, f 3]

/-- Power-on (R18 to R21, R71, R89, R92, R100, R115, R118, R154, R168, R169, R177). -/
def State.powerUp (s : State) (x : PowerOnSense) : State :=
  let drives := s.powerOnDrives x.spindles
  let strapped := allDrives.filter fun d => (drives[d] : DriveRec).startStrap && decide ((drives[d] : DriveRec).state = .stopped)
  { State.reset with
    drives := drives, ports := s.powerOnPorts x.hold, startList := strapped
    freeCount := s.freeCount, pending := s.pending }

/-- Loss of power (R17): every leg that is recording is cut, and the string stops. -/
def State.powerDown (s : State) : State := { forDrives State.cutLeg s with powered := false }

/-! ### The port reset -/

/-- A port's windows become FREE (R176). -/
def State.freeWindows (s : State) (p : Port) : State :=
  ([0, 1, 2, 3] : List (Fin 4)).foldl (fun s i =>
    match s.windows[i] with
    | some w => if w.owner = p then { s with windows := s.windows.set i.val none i.isLt } else s
    | none => s) s

/-- One request of a reset port (R72): detached, or gone at once. -/
def State.abandon (s : State) (rid : Nat) : State :=
  match s.request? rid with
  | none => s
  | some r =>
    if r.detached then s
    else if r.earlyEnded ∨ r.state = .transferring ∨ r.state = .sparing then
      s.putRequest { r.stopTimers with detached := true }
    else s.leaveTable rid

/-- The reservations of a reset port end and it leaves every wanted set (R162, steps 1 and 2). DESIGN CHOICE (log entry 38): the
drives are taken in ascending number, and so stand their DRIVE_FREE notices in another port's list. -/
def State.dropReservations (s : State) (p : Port) : State :=
  let s := forDrives (fun s d => if (s.drive d).unit.owner = some p then s.endReservation d else s) s
  forDrives (fun s d => s.onDrive d fun dr =>
    { dr with unit := { dr.unit with wanted := setOfPort dr.unit.wanted p false } }) s

/-- Attention set for a port on every present drive (R160). DESIGN CHOICE (log entry 38): the drives are taken in ascending number,
and so stand their ATTENTION notices in the port's list. -/
def State.attentionAll (s : State) (p : Port) (r : AttnReason) : State :=
  forDrives (fun s d => if (s.drive d).state = .absent then s else s.setAttention d p r) s

/-- A port's outbound side emptied (R184, step 2). -/
def PortRec.silenced (pr : PortRec) : PortRec := { pr with reports := [], wanted := [], sending := none, marker := none }

/-- A port reset (R184), in its order. -/
def State.portReset (s : State) (p : Port) : State :=
  let t := ((s.entriesOf p).map (·.rid)).foldl State.abandon s
  let t := t.onPort p PortRec.silenced
  let t := (t.dropReservations p).freeWindows p
  let t := t.onPort p fun pr =>
    PortRec.withLine { pr with settings := PortSettings.initial pr.baseStrap, notices := [] }
  s.close (t.attentionAll p .portReset)

/-! ### The string reset -/

/-- What a string reset does to a sequencer (R43), with what its cable presents. -/
def DriveRec.stringReset (dr : DriveRec) (x : SpindleSense) : DriveRec :=
  match dr.state with
  | .absent => if x.present then dr.sensed x else dr.foundAbsent
  | .stopped => if x.present then dr else dr.foundAbsent
  | .starting | .stopping => dr
  | .loading | .ready =>
    { dr.haltArm.recalibrate with state := .loading, load := { LoadRec.initial with step := .recalibrate } }
  | .faulted => if dr.clearing then { dr with arm := .idle, recalTimer := none, clearing := false } else dr

/-- The unit record and director's records of a drive at a string reset (R71, R162). -/
def DriveRec.cleared (dr : DriveRec) : DriveRec :=
  { dr with
    labelUpdate := none, deferred := Vector.replicate 4 none
    unit := { dr.unit with owner := none, wanted := Vector.replicate 4 false } }

/-- The director's part of a string reset (R71), the paths and the store (R114, R118), and the windows (R176). -/
def State.discardAll (s : State) : State :=
  { s with
    table := [], path0 := .free, path1 := .free, preference := [], segments := Vector.replicate 8 none
    buffer := SpareBuffer.initial, windows := Vector.replicate 4 none }

/-- A string reset (R71, R43, R162, R185), before its own report. -/
def State.stringReset (s : State) (cables : Vector SpindleSense 8) : State :=
  let s := (forDrives State.cutLeg s).discardAll
  let s := forDrives (fun s d => s.onDrive d fun dr => (dr.stringReset cables[d]).cleared) s
  let s := { s with startList := s.startList.filter fun d => decide ((s.drive d).state ≠ .absent) }
  let s := forPorts (fun s p => s.onPort p fun pr => PortRec.withLine { pr.silenced with notices := [] }) s
  forPorts (fun s p => s.attentionAll p .stringReset) s

/-- STRING RESET accepted (R71): the reset, then its own report. -/
def State.acceptStringReset (p : Port) (f : RequestFrame) (cables : Vector SpindleSense 8) (s : State) (_d : Drive)
    (_o : Operands) : State :=
  ((s.settle (s.stringReset cables)).queueReport p (doneReport .stringReset f .none)).flush

end Sys2Proof.Machine
end

