-- ==== Sys2Proof/Machine/Immediate.lean ====
section
/-! DEFINITION. What the immediate requests do once accepted: the unit table's (R155, R157, R158), the sequencer's (R39,
R42), the spare map unit's (R137), the adapters' (R166, R167, R183), the windows' (R171, R172), the settings' (R69), and
CANCEL (R58 to R61). -/

namespace Sys2Proof.Machine

/-! ### Reservations -/

/-- A drive's reservation owner set. -/
def State.setOwner (s : State) (d : Drive) (p : Port) : State :=
  s.onDrive d fun dr => { dr with unit := { dr.unit with owner := some p } }

/-- RESERVE (R155). -/
def acceptReserve (p : Port) (f : RequestFrame) (s : State) (d : Drive) (_o : Operands) : State :=
  (s.setOwner d p).answer p (doneReport .reserve f .none)

/-- RELEASE (R157). -/
def acceptRelease (p : Port) (f : RequestFrame) (s : State) (d : Drive) (_o : Operands) : State :=
  if (s.drive d).unit.owner = some p then (s.endReservation d).answer p (doneReport .release f .none)
  else s.answer p (plainReport .release f .done .notHeld .none .none)

/-- SEIZE (R158). -/
def acceptSeize (p : Port) (f : RequestFrame) (s : State) (d : Drive) (_o : Operands) : State :=
  match (s.drive d).unit.owner with
  | some q =>
    if q = p then s.answer p (doneReport .seize f .none)
    else
      let s := (s.setOwner d p).post q .reservationLost (.drive d) .none
      let s := s.onDrive d fun dr => { dr with unit := { dr.unit with wanted := setOfPort dr.unit.wanted p false } }
      (s.freeWanted d).answer p (doneReport .seize f .none)
  | none => (s.setOwner d p).answer p (doneReport .seize f .none)

/-! ### Records read -/

/-- The status record, with the fields of R42's table. DESIGN CHOICE (log entry 36): R18 calls each field of the drive's record
reported, and R42's table lists no arm owner, selected head, sector counter, elapsed time or clearing; they are not reported. -/
def State.statusOf (s : State) (p : Port) (d : Drive) : StatusRec :=
  let dr := s.drive d
  { state := dr.state, motor := dr.motor, arm := dr.arm, curCyl := dr.curCyl, tgtCyl := dr.tgtCyl
    packSeated := dr.packSeated, doorClosed := dr.doorClosed, writeProtect := dr.writeProtect
    writeFault := dr.writeFault, startStrap := dr.startStrap, inStartList := s.startList.contains d
    serial := dr.serial, labelState := dr.map.labelState, generation := dr.map.generation
    mapEntries := dr.map.entries.length, freeAlternates := (freeIndices dr.map.entries).length
    fault := if dr.state = .faulted then dr.fault.map fun x => (x.kind, x.collected) else none
    owner := dr.unit.owner, attention := ofPort dr.unit.attention p, queueLength := (s.queue d).length
    recoveredCount := (ofPort dr.recCounts p).count, deferred := ofPort dr.deferred p }

/-- READ STATUS (R42). -/
def acceptReadStatus (p : Port) (f : RequestFrame) (s : State) (d : Drive) (_o : Operands) : State :=
  s.answer p (doneReport .readStatus f (.status (s.statusOf p d)))

/-- READ FAULT RECORD (R39). -/
def acceptReadFault (p : Port) (f : RequestFrame) (s : State) (d : Drive) (_o : Operands) : State :=
  match (s.drive d).state, (s.drive d).fault with
  | .faulted, some x =>
    (s.onDrive d fun dr => { dr with fault := some { x with collected := true } }).answer p
      (doneReport .readFaultRecord f (.faultRecord { x with collected := true }))
  | _, _ => s.answer p (plainReport .readFaultRecord f .refused .notFaulted .none .none)

/-- The spare-map list (R137). -/
def DriveRec.spareMapList (dr : DriveRec) : SpareMapList :=
  { labelState := dr.map.labelState, generation := dr.map.generation, armed := dr.map.armed
    updateQueued := match dr.labelUpdate with
      | some u => decide (u.state = .queued)
      | none => false
    entryCount := dr.map.entries.length, freeAlternates := (freeIndices dr.map.entries).length
    entries := dr.map.entries }

/-- READ SPARE MAP (R137). -/
def acceptReadMap (p : Port) (f : RequestFrame) (s : State) (d : Drive) (_o : Operands) : State :=
  s.answer p (doneReport .readSpareMap f (.spareMap (s.drive d).spareMapList))

/-- READ IDENTITY (R183). -/
def State.identityOf (s : State) (p : Port) : Identity :=
  let pr := s.port p
  { model := 4170, port := p, maintStrap := pr.maintStrap, baseStrap := pr.baseStrap
    present := allDrives.filter fun d => decide ((s.drive d).state ≠ .absent)
    paths := 2, segments := 8, windows := 4, frameErrors := pr.frameErrors, unknownTags := pr.unknownTags
    overruns := pr.overruns }

def acceptReadIdentity (p : Port) (f : RequestFrame) (s : State) (_d : Drive) (_o : Operands) : State :=
  s.answer p (doneReport .readIdentity f (.identity (s.identityOf p)))

/-! ### Notices -/

/-- The records a collection takes and those it leaves (R166): the oldest `room` records of the selected kinds. -/
def collect (sel : List NoticeKind) : Nat → List Notice → List Notice × List Notice
  | _, [] => ([], [])
  | 0, ns => ([], ns)
  | room + 1, n :: ns =>
    if sel.isEmpty || sel.contains n.kind then
      let r := collect sel room ns
      (n :: r.1, r.2)
    else
      let r := collect sel (room + 1) ns
      (r.1, n :: r.2)

/-- COLLECT NOTICES (R166); a limit of 0 is no limit. -/
def acceptCollect (p : Port) (f : RequestFrame) (s : State) (_d : Drive) (o : Operands) : State :=
  match o with
  | .collect limit sel =>
    let ns := (s.port p).notices
    let r := collect sel (if limit = 0 then ns.length else limit) ns
    (s.onPort p fun pr => PortRec.withLine { pr with notices := r.2 }).answer p
      (doneReport .collectNotices f (.notices r.1 r.2.length))
  | _ => s

/-- TEST NOTICE (R167). -/
def acceptTest (p : Port) (f : RequestFrame) (s : State) (_d : Drive) (o : Operands) : State :=
  match o with
  | .port q => (s.post q .test .none .none).answer p (doneReport .testNotice f .none)
  | _ => s

/-! ### Windows -/

/-- A window record replaced. -/
def State.setWindow (s : State) (w : Fin 4) (x : Option Window) : State :=
  { s with windows := s.windows.set w.val x w.isLt }

/-- REFUSED WINDOW_OWNED (R171, R172). -/
def State.windowOwned (s : State) (p : Port) (k : Kind) (f : RequestFrame) (w : Fin 4) : State :=
  s.answer p (plainReport k f .refused .windowOwned (.window w.val) .none)

/-- Whether a window is SET by another port. -/
def State.ownedByOther (s : State) (p : Port) (w : Fin 4) : Bool :=
  match s.windows[w] with
  | some x => decide (x.owner ≠ p)
  | none => false

/-- SET WINDOW (R171). -/
def acceptSetWindow (p : Port) (f : RequestFrame) (s : State) (d : Drive) (o : Operands) : State :=
  match o with
  | .window w base len a b c =>
    if s.ownedByOther p w then s.windowOwned p .setWindow f w
    else
      let x : Window := { owner := p, drive := d, base := base, length := len, access := a, action := b, scope := c }
      (s.setWindow w (some x)).answer p (doneReport .setWindow f (.windows [(w.val, some x)]))
  | _ => s

/-- CLEAR WINDOW (R172). -/
def acceptClearWindow (p : Port) (f : RequestFrame) (s : State) (_d : Drive) (o : Operands) : State :=
  match o with
  | .windowNumber w =>
    if s.ownedByOther p w then s.windowOwned p .clearWindow f w
    else (s.setWindow w none).answer p (doneReport .clearWindow f .none)
  | _ => s

/-- READ WINDOWS (R172). -/
def acceptReadWindows (p : Port) (f : RequestFrame) (s : State) (_d : Drive) (_o : Operands) : State :=
  s.answer p (doneReport .readWindows f
    (.windows (([0, 1, 2, 3] : List (Fin 4)).map fun w => (w.val, s.windows[w]))))

/-! ### Settings -/

/-- A value clamped to a range (R68). -/
def clamp (lo hi v : Nat) : Nat := if v < lo then lo else if hi < v then hi else v

/-- One setting as taken (R68): clamped or rounded. -/
def SettingItem.taken (x : SettingItem) : SettingItem :=
  match x.setting with
  | .retryLimit | .suspectThreshold => { x with value := clamp 1 15 x.value }
  | .preferenceMisses => { x with value := clamp 1 7 x.value }
  | .overduePasses => { x with value := clamp 4 15 x.value }
  | .unitBase => { x with value := x.value / 8 * 8 }
  | .dataWait => { x with value := min 15 x.value }
  | .autoSpare | .earlyEndPermitted | .noticeLineEnable => x

/-- One setting put in force for the sending port or the string (R69). -/
def State.putSetting (p : Port) (s : State) (x : SettingItem) : State :=
  let onP := fun (g : PortSettings → PortSettings) => s.onPort p fun pr => PortRec.withLine { pr with settings := g pr.settings }
  match x.setting with
  | .retryLimit => { s with settings := { s.settings with retryLimit := x.value } }
  | .autoSpare => { s with settings := { s.settings with autoSpare := decide (x.value = 1) } }
  | .suspectThreshold => { s with settings := { s.settings with suspectThreshold := x.value } }
  | .preferenceMisses => { s with settings := { s.settings with preferenceMisses := x.value } }
  | .overduePasses => { s with settings := { s.settings with overduePasses := x.value } }
  | .unitBase => onP fun c => { c with unitBase := x.value }
  | .earlyEndPermitted => onP fun c => { c with earlyEndPermitted := decide (x.value = 1) }
  | .noticeLineEnable => onP fun c => { c with noticeLineEnable := decide (x.value = 1) }
  | .dataWait => onP fun c => { c with waitFactor := x.value, waitUnit := x.unit.getD c.waitUnit }

/-- SET SETTINGS (R69); a change of OVERDUE_PASSES is followed by the segment test of R76. -/
def acceptSetSettings (p : Port) (f : RequestFrame) (s : State) (_d : Drive) (o : Operands) : State :=
  match o with
  | .settings xs =>
    let taken := xs.map SettingItem.taken
    let t := taken.foldl (State.putSetting p) s
    let body := if taken.isEmpty then Body.none else .settings taken
    if taken.any (·.setting = .overduePasses) then s.close (t.queueReport p (doneReport .setSettings f body))
    else t.answer p (doneReport .setSettings f body)
  | _ => s

/-- An off or on setting as a value. -/
def switchValue (b : Bool) : Nat := if b then 1 else 0

/-- The settings list of READ SETTINGS (R69): the string settings, then the asking port's. -/
def State.settingsOf (s : State) (p : Port) : List SettingItem :=
  let g := s.settings
  let c := (s.port p).settings
  let item := fun (t : Setting) (v : Nat) => ({ setting := t, value := v, unit := none } : SettingItem)
  [item .retryLimit g.retryLimit, item .autoSpare (switchValue g.autoSpare),
    item .suspectThreshold g.suspectThreshold, item .preferenceMisses g.preferenceMisses,
    item .overduePasses g.overduePasses, item .unitBase c.unitBase,
    item .earlyEndPermitted (switchValue c.earlyEndPermitted), item .noticeLineEnable (switchValue c.noticeLineEnable),
    { setting := .dataWait, value := c.waitFactor, unit := some c.waitUnit }]

def acceptReadSettings (p : Port) (f : RequestFrame) (s : State) (_d : Drive) (_o : Operands) : State :=
  s.answer p (doneReport .readSettings f (.settings (s.settingsOf p)))

/-! ### CANCEL -/

/-- A cancel that must wait (R60, R61): the marker set, and an owner in movement released from the arm. -/
def State.pendCancel (s : State) (r : Request) : State :=
  let s := s.putRequest { r with cancelPending := true }
  if (r.state = .seeking ∨ r.state = .recalibrating) ∧ (s.drive r.drive).owner = some r.rid then
    s.onDrive r.drive DriveRec.loseOwner
  else s

/-- What a CANCEL does to its target (R59 to R61). -/
def State.cancelTarget (s : State) (r : Request) : State :=
  match r.state with
  | .waitingChain | .queued | .positioned | .sparingWait | .controlWait => s.settle (s.conclude r.rid Ending.cancelled)
  | .seeking | .recalibrating | .transferring | .sparing => if r.cancelPending then s else s.pendCancel r

/-- CANCEL (R58): the target first, its own report last. -/
def acceptCancel (p : Port) (f : RequestFrame) (s : State) (_d : Drive) (o : Operands) : State :=
  match o with
  | .target tag =>
    match s.tagged? p tag with
    | none => s.answer p (plainReport .cancel f .refused .tagUnknown .none .none)
    | some r =>
      if r.earlyEnded then s.answer p (plainReport .cancel f .refused .notCancellable .none .none)
      else ((s.cancelTarget r).queueReport p (doneReport .cancel f .none)).flush
  | _ => s

end Sys2Proof.Machine
end

