-- ==== Sys2Proof/Machine/Answer.lean ====
section
/-! DEFINITION. The outcome of a command: always a next state; a string without power takes nothing but POWER_ON. -/

namespace Sys2Proof.Machine

/-- The state a command leaves while power is applied; without power nothing happens (R17, log entry 6). -/
def State.live (s t : State) : Host.Outcome State Fault Refusal := .next (if s.powered then t else s)

end Sys2Proof.Machine
end

