-- ==== Sys2Proof/Machine/ArmKinds.lean ====
section
/-! DEFINITION. The arm and upkeep requests as they arrive (R87, R88, R133 to R136). -/

namespace Sys2Proof.Machine

/-- POSITION (R87) as it arrives. -/
def execPosition (p : Port) (f : RequestFrame) (s : State) : Host.Outcome State Fault Refusal :=
  s.live (s.arrival p .position f (State.acceptEntry .position p f))

/-- RECALIBRATE (R88) as it arrives. -/
def execRecalibrate (p : Port) (f : RequestFrame) (s : State) : Host.Outcome State Fault Refusal :=
  s.live (s.arrival p .recalibrate f (State.acceptEntry .recalibrate p f))

/-- SPARE TRACK (R133) as it arrives. -/
def execSpareTrack (p : Port) (f : RequestFrame) (s : State) : Host.Outcome State Fault Refusal :=
  s.live (s.arrival p .spareTrack f (State.acceptEntry .spareTrack p f))

/-- RETURN ALTERNATE (R134) as it arrives. -/
def execReturnAlternate (p : Port) (f : RequestFrame) (s : State) : Host.Outcome State Fault Refusal :=
  s.live (s.arrival p .returnAlternate f (State.acceptEntry .returnAlternate p f))

/-- FORMAT TRACK (R135) as it arrives. -/
def execFormatTrack (p : Port) (f : RequestFrame) (s : State) : Host.Outcome State Fault Refusal :=
  s.live (s.arrival p .formatTrack f (State.acceptEntry .formatTrack p f))

/-- WRITE LABEL (R136) as it arrives. -/
def execWriteLabel (p : Port) (f : RequestFrame) (s : State) : Host.Outcome State Fault Refusal :=
  s.live (s.arrival p .writeLabel f (State.acceptEntry .writeLabel p f))

end Sys2Proof.Machine
end

