-- ==== Sys2Proof/Machine/DataKinds.lean ====
section
/-! DEFINITION. The data requests as they arrive (R44 to R50, R109 to R113). -/

namespace Sys2Proof.Machine

/-- READ BLOCKS (R109) as it arrives. -/
def execReadBlocks (p : Port) (f : RequestFrame) (s : State) : Host.Outcome State Fault Refusal :=
  s.live (s.arrival p .readBlocks f (State.acceptEntry .readBlocks p f))

/-- WRITE BLOCKS (R110) as it arrives. -/
def execWriteBlocks (p : Port) (f : RequestFrame) (s : State) : Host.Outcome State Fault Refusal :=
  s.live (s.arrival p .writeBlocks f (State.acceptEntry .writeBlocks p f))

/-- WRITE AND CHECK (R111) as it arrives. -/
def execWriteAndCheck (p : Port) (f : RequestFrame) (s : State) : Host.Outcome State Fault Refusal :=
  s.live (s.arrival p .writeAndCheck f (State.acceptEntry .writeAndCheck p f))

/-- CHECK BLOCKS (R112, R113) as it arrives. -/
def execCheckBlocks (p : Port) (f : RequestFrame) (s : State) : Host.Outcome State Fault Refusal :=
  s.live (s.arrival p .checkBlocks f (State.acceptEntry .checkBlocks p f))

end Sys2Proof.Machine
end

