-- ==== Sys2Proof/Machine/DriveControl.lean ====
section
/-! DEFINITION. The drive-control requests as they arrive (R23, R36, R40, R152). -/

namespace Sys2Proof.Machine

/-- START DRIVE (R23) as it arrives. -/
def execStartDrive (p : Port) (f : RequestFrame) (s : State) : Host.Outcome State Fault Refusal :=
  s.live (s.arrival p .startDrive f (State.acceptEntry .startDrive p f))

/-- STOP DRIVE (R36) as it arrives. -/
def execStopDrive (p : Port) (f : RequestFrame) (s : State) : Host.Outcome State Fault Refusal :=
  s.live (s.arrival p .stopDrive f (State.acceptEntry .stopDrive p f))

/-- CLEAR FAULT (R40) as it arrives. -/
def execClearFault (p : Port) (f : RequestFrame) (s : State) : Host.Outcome State Fault Refusal :=
  s.live (s.arrival p .clearFault f (State.acceptEntry .clearFault p f))

/-- SYNCHRONIZE (R152) as it arrives. -/
def execSynchronize (p : Port) (f : RequestFrame) (s : State) : Host.Outcome State Fault Refusal :=
  s.live (s.arrival p .synchronize f (State.acceptEntry .synchronize p f))

end Sys2Proof.Machine
end

