-- ==== Sys2Proof/Machine/DriveImmediate.lean ====
section
/-! DEFINITION. The drive immediate requests (R39, R42, R137, R155, R157, R158). -/

namespace Sys2Proof.Machine

/-- RESERVE (R155). -/
def execReserve (p : Port) (f : RequestFrame) (s : State) : Host.Outcome State Fault Refusal :=
  s.live (s.arrival p .reserve f (acceptReserve p f))

/-- RELEASE (R157). -/
def execRelease (p : Port) (f : RequestFrame) (s : State) : Host.Outcome State Fault Refusal :=
  s.live (s.arrival p .release f (acceptRelease p f))

/-- SEIZE (R158). -/
def execSeize (p : Port) (f : RequestFrame) (s : State) : Host.Outcome State Fault Refusal :=
  s.live (s.arrival p .seize f (acceptSeize p f))

/-- READ STATUS (R42). -/
def execReadStatus (p : Port) (f : RequestFrame) (s : State) : Host.Outcome State Fault Refusal :=
  s.live (s.arrival p .readStatus f (acceptReadStatus p f))

/-- READ FAULT RECORD (R39). -/
def execReadFaultRecord (p : Port) (f : RequestFrame) (s : State) : Host.Outcome State Fault Refusal :=
  s.live (s.arrival p .readFaultRecord f (acceptReadFault p f))

/-- READ SPARE MAP (R137). -/
def execReadSpareMap (p : Port) (f : RequestFrame) (s : State) : Host.Outcome State Fault Refusal :=
  s.live (s.arrival p .readSpareMap f (acceptReadMap p f))

end Sys2Proof.Machine
end

