-- ==== Sys2Proof/Machine/LinkEvents.lean ====
section
/-! DEFINITION. The events of the port links (R102, R104, R107, R177, R178, R180 to R182, R184) and of the data-wait timers (R105, R106). -/

namespace Sys2Proof.Machine

/-- A frame that R178 discards; a frame that it does not discard is no such event. -/
def execBadFrame (p : Port) (octets : List Octet) (s : State) : Host.Outcome State Fault Refusal :=
  s.live (if (s.port p).online ∧ isBadFrame octets = true then s.badFrameAt p octets else s)

/-- A good data-out frame (R104). -/
def execDataOut (p : Port) (tag : Octet) (index : Word16) (block : Block) (s : State) : Host.Outcome State Fault Refusal :=
  s.live (if (s.port p).online then s.dataOutFrame p tag index.toNat block else s)

/-- A good link-reset frame (R184). -/
def execLinkReset (p : Port) (s : State) : Host.Outcome State Fault Refusal :=
  s.live (if (s.port p).online then s.portReset p else s)

/-- Loss of the link signal (R177). -/
def execLinkSignalLoss (p : Port) (s : State) : Host.Outcome State Fault Refusal :=
  s.live (if (s.port p).online then (s.onPort p fun pr => { pr with online := false }).portReset p else s)

/-- Appearance of the link signal (R177). -/
def execLinkSignalAppears (p : Port) (s : State) : Host.Outcome State Fault Refusal :=
  s.live (if (s.port p).online then s else (s.onPort p fun pr => { pr with online := true }).pump p)

/-- A change of the hold line (R107). -/
def execHoldLineChange (p : Port) (raised : Bool) (s : State) : Host.Outcome State Fault Refusal :=
  s.live ((s.onPort p fun pr => { pr with hold := raised }).pump p)

/-- A data-in frame sent in full (R102). -/
def execDataInSent (p : Port) (s : State) : Host.Outcome State Fault Refusal :=
  s.live
    (match (s.port p).sending with
    | some (.dataIn rid _ index _) =>
      s.close ((s.onPort p fun pr => { pr with sending := none }).deliver rid index)
    | _ => s)

/-- A data-wanted frame sent in full (R182). -/
def execDataWantedSent (p : Port) (s : State) : Host.Outcome State Fault Refusal :=
  s.live
    (match (s.port p).sending with
    | some (.wanted w) => ((s.onPort p fun pr => { pr with sending := none }).wantedSent w).pump p
    | _ => s)

/-- A report sent in full (R180): it leaves the report queue. -/
def execReportSent (p : Port) (s : State) : Host.Outcome State Fault Refusal :=
  s.live
    (match (s.port p).sending with
    | some (.report _) => (s.onPort p fun pr => { pr with sending := none, reports := pr.reports.tail }).pump p
    | _ => s)

/-- Expiry of the data-wait timer of a half (R105). -/
def execDataWaitExpiry (p : Port) (tag : Fin 16) (half : Fin 2) (s : State) : Host.Outcome State Fault Refusal :=
  s.live
    (match s.tagged? p tag.val with
    | some r => s.waitExpiry r (decide (half = 1))
    | none => s)

/-- Expiry of a read's data-wait timer (R106). -/
def execReadTimerExpiry (p : Port) (tag : Fin 16) (s : State) : Host.Outcome State Fault Refusal :=
  s.live
    (match s.tagged? p tag.val with
    | some r => s.readExpiry r
    | none => s)

end Sys2Proof.Machine
end

