-- ==== Sys2Proof/Machine/PortImmediate.lean ====
section
/-! DEFINITION. The port and string immediate requests (R58, R69, R71, R166, R167, R171, R172, R183), and a request of unknown kind (R47). -/

namespace Sys2Proof.Machine

/-- COLLECT NOTICES (R166). -/
def execCollectNotices (p : Port) (f : RequestFrame) (s : State) : Host.Outcome State Fault Refusal :=
  s.live (s.arrival p .collectNotices f (acceptCollect p f))

/-- TEST NOTICE (R167). -/
def execTestNotice (p : Port) (f : RequestFrame) (s : State) : Host.Outcome State Fault Refusal :=
  s.live (s.arrival p .testNotice f (acceptTest p f))

/-- CANCEL (R58). -/
def execCancel (p : Port) (f : RequestFrame) (s : State) : Host.Outcome State Fault Refusal :=
  s.live (s.arrival p .cancel f (acceptCancel p f))

/-- SET WINDOW (R171). -/
def execSetWindow (p : Port) (f : RequestFrame) (s : State) : Host.Outcome State Fault Refusal :=
  s.live (s.arrival p .setWindow f (acceptSetWindow p f))

/-- CLEAR WINDOW (R172). -/
def execClearWindow (p : Port) (f : RequestFrame) (s : State) : Host.Outcome State Fault Refusal :=
  s.live (s.arrival p .clearWindow f (acceptClearWindow p f))

/-- READ WINDOWS (R172). -/
def execReadWindows (p : Port) (f : RequestFrame) (s : State) : Host.Outcome State Fault Refusal :=
  s.live (s.arrival p .readWindows f (acceptReadWindows p f))

/-- SET SETTINGS (R69). -/
def execSetSettings (p : Port) (f : RequestFrame) (s : State) : Host.Outcome State Fault Refusal :=
  s.live (s.arrival p .setSettings f (acceptSetSettings p f))

/-- READ SETTINGS (R69). -/
def execReadSettings (p : Port) (f : RequestFrame) (s : State) : Host.Outcome State Fault Refusal :=
  s.live (s.arrival p .readSettings f (acceptReadSettings p f))

/-- READ IDENTITY (R183). -/
def execReadIdentity (p : Port) (f : RequestFrame) (s : State) : Host.Outcome State Fault Refusal :=
  s.live (s.arrival p .readIdentity f (acceptReadIdentity p f))

/-- STRING RESET (R71), with what the eight cables present. -/
def execStringReset (p : Port) (f : RequestFrame) (cables : Vector SpindleSense 8) (s : State) :
    Host.Outcome State Fault Refusal :=
  s.live (s.arrival p .stringReset f (State.acceptStringReset p f cables))

/-- A request whose kind code is unknown (R47): TAG_IN_USE or KIND_INVALID. -/
def execKindInvalidRequest (p : Port) (code : Octet) (f : RequestFrame) (s : State) :
    Host.Outcome State Fault Refusal :=
  s.live
    (if (s.port p).online = false then s
    else if s.hasRoom p = false then s.overrun p
    else if (s.tagged? p f.tagNumber).isSome then s.deny p code.toNat none f .tagInUse
    else s.deny p code.toNat none f .kindInvalid)

end Sys2Proof.Machine
end

