-- ==== Sys2Proof/Machine/SpindleEvents.lean ====
section
/-! DEFINITION. The events of spindles and packs (R19, R22, R31 to R34, R37, R41) and of power (R17, R71). -/

namespace Sys2Proof.Machine

/-- A STOPPING drive comes to rest (R37, R40). -/
def State.comesToRest (s : State) (d : Drive) : State :=
  let ending := s.table.filter fun r => decide (r.drive = d) && decide (r.state = .controlWait)
    && (decide (r.kind = .stopDrive) || decide (r.kind = .clearFault))
  let s := s.onDrive d fun dr => { dr with state := .stopped }
  let s := s.endTogether (ending.map (·.rid))
  if (s.drive d).packLeft then s.onDrive d fun dr => { dr.discardMap with serial := none, packLeft := false } else s

/-- A clearing cut by the door or the pack (R40): its requests end ABANDONED DRIVE_STOPPED. -/
def State.cutClearing (s : State) (d : Drive) : State :=
  if (s.drive d).clearing then
    let ending := s.clearers d
    let s := s.onDrive d fun dr => { dr with arm := .idle, recalTimer := none, clearing := false }
    ending.foldl (fun s r => s.conclude r.rid (Ending.make .abandoned .driveStopped)) s
  else s

/-- The door opened or the pack removed, by the drive's state (R34, R35, R41). -/
def State.opened (s : State) (d : Drive) : State :=
  match (s.drive d).state with
  | .starting | .loading | .ready => s.stopDrive d none
  | .faulted =>
    (s.cutClearing d).onDrive d fun dr => { dr with motor := if dr.motor = .atSpeed then .coasting else dr.motor }
  | .stopped | .stopping | .absent => s

/-- The pack gone: its serial and map are discarded, at rest when the drive is STOPPING (R34, R37). -/
def State.packGone (s : State) (d : Drive) : State :=
  s.onDrive d fun dr =>
    if dr.state = .stopping then { dr with pack := none, packLeft := true }
    else { dr.discardMap with pack := none, serial := none }

/-- Whether a leg of a drive is recording (R32). -/
def State.recording (s : State) (d : Drive) : Option Request :=
  match s.owner? d with
  | some r => if r.phase = .passing ∧ (s.leg r).writesData = true then some r else none
  | none => none

/-- The write-fault level risen (R32): a recording leg is cut and the drive faulted. -/
def State.faultIfRecording (s : State) (d : Drive) : State :=
  match s.recording d with
  | some r => s.faultDrive d .writeFault (some r)
  | none => s

/-- Power applied (R71): power-on values, presence sensed, strapped drives started through the start list. -/
def execPowerOn (sense : PowerOnSense) (s : State) : Host.Outcome State Fault Refusal := .next (s.settle (s.powerUp sense))

/-- Power lost (R17). -/
def execPowerLoss (s : State) : Host.Outcome State Fault Refusal := s.live s.powerDown

/-- A spindle appears on an ABSENT drive's cable (R19). -/
def execSpindleSensed (d : Drive) (sense : SpindleSense) (s : State) : Host.Outcome State Fault Refusal :=
  s.live
    (if (s.drive d).state = .absent ∧ sense.present = true then s.onDrive d fun dr => dr.sensed sense else s)

/-- The spindle reports at-speed (R22). -/
def execAtSpeed (d : Drive) (s : State) : Host.Outcome State Fault Refusal :=
  s.live
    (if (s.drive d).state = .starting then
      let s := s.onDrive d fun dr => { dr with motor := .atSpeed, spinTimer := none, sector := 0, elapsed := 0 }
      s.close { s.beginLoad d with gateOpen := true }
    else s)

/-- The spin timer expires (R22). -/
def execSpinTimeout (d : Drive) (s : State) : Host.Outcome State Fault Refusal :=
  s.live
    (if (s.drive d).state = .starting ∧ (s.drive d).spinTimer.isSome = true then
      s.close (s.faultDrive d .spinTimeout none)
    else s)

/-- The start-gap timer expires (R21). -/
def execStartGapExpiry (s : State) : Host.Outcome State Fault Refusal :=
  s.live (if s.gapTimer.isSome then s.close { s with gapTimer := none, gateOpen := true } else s)

/-- The spindle reports at-rest (R37, R41): a STOPPING drive becomes STOPPED, and its STOP DRIVE and CLEAR FAULT end DONE. -/
def execAtRest (d : Drive) (s : State) : Host.Outcome State Fault Refusal :=
  s.live
    (if (s.drive d).motor = .coasting then
      let s := s.onDrive d fun dr => { dr with motor := .off }
      if (s.drive d).state = .stopping then s.close (s.comesToRest d) else s
    else s)

/-- The on-cylinder event (R27). -/
def execOnCylinder (d : Drive) (settled : Nat) (s : State) : Host.Outcome State Fault Refusal :=
  s.live (if (s.drive d).arm = .seeking then s.close (s.onCylinderEvent d settled) else s)

/-- The seek timer expires (R27). -/
def execSeekTimerExpiry (d : Drive) (s : State) : Host.Outcome State Fault Refusal :=
  s.live
    (if (s.drive d).arm = .seeking ∧ (s.drive d).seekTimer.isSome = true then s.close (s.seekExpiry d) else s)

/-- The home event (R28). -/
def execHomeEvent (d : Drive) (s : State) : Host.Outcome State Fault Refusal :=
  s.live (if (s.drive d).arm = .recalibrating then s.close (s.homeEvent d) else s)

/-- The recalibrate timer expires (R28). -/
def execRecalibrateTimerExpiry (d : Drive) (s : State) : Host.Outcome State Fault Refusal :=
  s.live
    (if (s.drive d).arm = .recalibrating ∧ (s.drive d).recalTimer.isSome = true then
      s.close (s.recalibrateExpiry d)
    else s)

/-- A sector mark passes the heads (R31). -/
def execSectorEvent (d : Drive) (n : Fin 24) (read : SurfaceRead) (s : State) : Host.Outcome State Fault Refusal :=
  s.live (if (s.drive d).motor = .atSpeed then s.close (s.sectorEvent d n.val read) else s)

/-- The pack door opens (R34, R41). -/
def execDoorOpened (d : Drive) (s : State) : Host.Outcome State Fault Refusal :=
  s.live
    (if (s.drive d).state = .absent ∨ (s.drive d).doorClosed = false then s
    else s.close ((s.onDrive d fun dr => { dr with doorClosed := false }).opened d))

/-- The pack leaves its drive (R34, R37, R41). -/
def execPackRemoved (d : Drive) (s : State) : Host.Outcome State Fault Refusal :=
  s.live
    (if (s.drive d).state = .absent ∨ (s.drive d).packSeated = false then s
    else s.close (((s.onDrive d fun dr => { dr with packSeated := false }).opened d).packGone d))

/-- The pack door closes (R34). -/
def execDoorClosed (d : Drive) (s : State) : Host.Outcome State Fault Refusal :=
  s.live
    (if (s.drive d).state = .absent then s
    else s.close (s.onDrive d fun dr => { dr with doorClosed := true }))

/-- A pack is seated (R34). -/
def execPackSeated (d : Drive) (pack : Pack) (s : State) : Host.Outcome State Fault Refusal :=
  s.live
    (if (s.drive d).state = .absent ∨ (s.drive d).packSeated = true then s
    else s.close (s.onDrive d fun dr => { dr with packSeated := true, pack := some pack }))

/-- The spindle raises write fault (R32). -/
def execWriteFaultRaised (d : Drive) (s : State) : Host.Outcome State Fault Refusal :=
  s.live
    (if (s.drive d).state = .absent then s
    else s.close ((s.onDrive d fun dr => { dr with writeFault := true }).faultIfRecording d))

/-- The spindle drops write fault (R32). -/
def execWriteFaultDropped (d : Drive) (s : State) : Host.Outcome State Fault Refusal :=
  s.live
    (if (s.drive d).state = .absent then s else s.onDrive d fun dr => { dr with writeFault := false })

/-- The write-protect switch changes (R33). -/
def execWriteProtectChange (d : Drive) (isProtected : Bool) (s : State) : Host.Outcome State Fault Refusal :=
  s.live
    (if (s.drive d).state = .absent then s else s.onDrive d fun dr => { dr with writeProtect := isProtected })

end Sys2Proof.Machine
end

