-- ==== Sys2Proof/Machine/Dispatch.lean ====
section
/-! DEFINITION. The meaning of every command: one arm per constructor of `Instr`, each one direct call. -/

namespace Sys2Proof.Machine

def exec (i : Instr) (s : State) : Host.Outcome State Fault Refusal :=
  match i with
  | .powerOn sense => Sys2Proof.Machine.execPowerOn sense s
  | .readBlocks p f => Sys2Proof.Machine.execReadBlocks p f s
  | .writeBlocks p f => Sys2Proof.Machine.execWriteBlocks p f s
  | .writeAndCheck p f => Sys2Proof.Machine.execWriteAndCheck p f s
  | .checkBlocks p f => Sys2Proof.Machine.execCheckBlocks p f s
  | .position p f => Sys2Proof.Machine.execPosition p f s
  | .recalibrate p f => Sys2Proof.Machine.execRecalibrate p f s
  | .spareTrack p f => Sys2Proof.Machine.execSpareTrack p f s
  | .returnAlternate p f => Sys2Proof.Machine.execReturnAlternate p f s
  | .formatTrack p f => Sys2Proof.Machine.execFormatTrack p f s
  | .writeLabel p f => Sys2Proof.Machine.execWriteLabel p f s
  | .startDrive p f => Sys2Proof.Machine.execStartDrive p f s
  | .stopDrive p f => Sys2Proof.Machine.execStopDrive p f s
  | .clearFault p f => Sys2Proof.Machine.execClearFault p f s
  | .synchronize p f => Sys2Proof.Machine.execSynchronize p f s
  | .reserve p f => Sys2Proof.Machine.execReserve p f s
  | .release p f => Sys2Proof.Machine.execRelease p f s
  | .seize p f => Sys2Proof.Machine.execSeize p f s
  | .readStatus p f => Sys2Proof.Machine.execReadStatus p f s
  | .readFaultRecord p f => Sys2Proof.Machine.execReadFaultRecord p f s
  | .readSpareMap p f => Sys2Proof.Machine.execReadSpareMap p f s
  | .collectNotices p f => Sys2Proof.Machine.execCollectNotices p f s
  | .testNotice p f => Sys2Proof.Machine.execTestNotice p f s
  | .cancel p f => Sys2Proof.Machine.execCancel p f s
  | .setWindow p f => Sys2Proof.Machine.execSetWindow p f s
  | .clearWindow p f => Sys2Proof.Machine.execClearWindow p f s
  | .readWindows p f => Sys2Proof.Machine.execReadWindows p f s
  | .setSettings p f => Sys2Proof.Machine.execSetSettings p f s
  | .readSettings p f => Sys2Proof.Machine.execReadSettings p f s
  | .readIdentity p f => Sys2Proof.Machine.execReadIdentity p f s
  | .stringReset p f cables => Sys2Proof.Machine.execStringReset p f cables s
  | .badFrame p octets => Sys2Proof.Machine.execBadFrame p octets s
  | .dataOut p tag index block => Sys2Proof.Machine.execDataOut p tag index block s
  | .linkReset p => Sys2Proof.Machine.execLinkReset p s
  | .linkSignalLoss p => Sys2Proof.Machine.execLinkSignalLoss p s
  | .linkSignalAppears p => Sys2Proof.Machine.execLinkSignalAppears p s
  | .holdLineChange p raised => Sys2Proof.Machine.execHoldLineChange p raised s
  | .dataInSent p => Sys2Proof.Machine.execDataInSent p s
  | .dataWantedSent p => Sys2Proof.Machine.execDataWantedSent p s
  | .reportSent p => Sys2Proof.Machine.execReportSent p s
  | .dataWaitExpiry p tag half => Sys2Proof.Machine.execDataWaitExpiry p tag half s
  | .readTimerExpiry p tag => Sys2Proof.Machine.execReadTimerExpiry p tag s
  | .spindleSensed d sense => Sys2Proof.Machine.execSpindleSensed d sense s
  | .atSpeed d => Sys2Proof.Machine.execAtSpeed d s
  | .spinTimeout d => Sys2Proof.Machine.execSpinTimeout d s
  | .startGapExpiry => Sys2Proof.Machine.execStartGapExpiry s
  | .atRest d => Sys2Proof.Machine.execAtRest d s
  | .onCylinder d settled => Sys2Proof.Machine.execOnCylinder d settled s
  | .seekTimerExpiry d => Sys2Proof.Machine.execSeekTimerExpiry d s
  | .homeEvent d => Sys2Proof.Machine.execHomeEvent d s
  | .recalibrateTimerExpiry d => Sys2Proof.Machine.execRecalibrateTimerExpiry d s
  | .sectorEvent d n read => Sys2Proof.Machine.execSectorEvent d n read s
  | .doorOpened d => Sys2Proof.Machine.execDoorOpened d s
  | .packRemoved d => Sys2Proof.Machine.execPackRemoved d s
  | .doorClosed d => Sys2Proof.Machine.execDoorClosed d s
  | .packSeated d pack => Sys2Proof.Machine.execPackSeated d pack s
  | .writeFaultRaised d => Sys2Proof.Machine.execWriteFaultRaised d s
  | .writeFaultDropped d => Sys2Proof.Machine.execWriteFaultDropped d s
  | .writeProtectChange d isProtected => Sys2Proof.Machine.execWriteProtectChange d isProtected s
  | .powerLoss => Sys2Proof.Machine.execPowerLoss s
  | .kindInvalidRequest p code f => Sys2Proof.Machine.execKindInvalidRequest p code f s

end Sys2Proof.Machine
end

