-- ==== Sys2Proof/Machine/Step.lean ====
section
/-! DEFINITION. The step: the command at the front of the queue, or, with nothing waiting, one microsecond of the clock
(R31, R105, R21, R22, R27, R28; log entry 2). -/

namespace Sys2Proof.Machine

/-- A running timer counts down one microsecond; at 0 it has run out and waits for its expiry to be taken. -/
def tickTimer (t : Option Nat) : Option Nat := t.map (· - 1)

/-- One microsecond at a drive: the elapsed time in the sector while AT_SPEED (R31), and its timers. -/
def DriveRec.tick (dr : DriveRec) : DriveRec :=
  { dr with
    elapsed := if dr.motor = .atSpeed then min 699 (dr.elapsed + 1) else dr.elapsed
    spinTimer := tickTimer dr.spinTimer, seekTimer := tickTimer dr.seekTimer, recalTimer := tickTimer dr.recalTimer }

/-- One microsecond at a request's data-wait timers (R105, R106). -/
def Request.tick (r : Request) : Request :=
  { r with
    half0 := { r.half0 with timer := tickTimer r.half0.timer }
    half1 := { r.half1 with timer := tickTimer r.half1.timer }
    readTimer := tickTimer r.readTimer }

/-- One microsecond of the string's clock. -/
def State.tick (s : State) : State :=
  let s := { s with gapTimer := tickTimer s.gapTimer, table := s.table.map Request.tick }
  forDrives (fun s d => s.onDrive d DriveRec.tick) s

/-- One step: the first waiting command, or the clock. -/
def step (s : State) : Host.Outcome State Fault Refusal :=
  match s.pending with
  | c :: rest => exec c { s with pending := rest }
  | [] => s.live s.tick

/-- The command a table word spells put at the front of the queue; unchanged when the word spells none. -/
def State.withFetchWord (s : State) (nbits w : Nat) : State :=
  match decodeTableWord nbits w with
  | some c => { s with pending := c :: s.pending }
  | none => s

end Sys2Proof.Machine
end

