-- ==== Sys2Proof/WellFormed.lean ====
section
/-! DEFINITION. Well-formed commands: what the frame layouts (10.8), the recorded layouts (1.10) and the geometry allow a
command's operands to be. -/

namespace Sys2Proof

/-- A request frame the link can carry: its parameter length is one octet (10.8). -/
def RequestFrame.valid (f : RequestFrame) : Bool := decide (f.params.length ≤ 255)

/-- A pack in canonical form, every block of 512 octets (R2, R7). -/
def Pack.valid (p : Pack) : Bool := p.wf && p.sectors.all fun x => decide (x.2.data.block.length = 512)

/-- A spindle's levels: a seated pack is a valid one. -/
def SpindleSense.valid (x : SpindleSense) : Bool :=
  match x.pack with
  | .seated p => p.valid
  | _ => true

/-- What the heads deliver: a data field of 512 octets and a check code. -/
def SurfaceRead.valid (r : SurfaceRead) : Bool :=
  match r.data with
  | some f => decide (f.block.length = 512)
  | none => true

/-- Well-formed commands. -/
def Instr.wellFormed : Instr → Bool
  | .powerOn x => x.spindles.all SpindleSense.valid
  | .readBlocks _ f | .writeBlocks _ f | .writeAndCheck _ f | .checkBlocks _ f | .position _ f | .recalibrate _ f
  | .spareTrack _ f | .returnAlternate _ f | .formatTrack _ f | .writeLabel _ f | .startDrive _ f | .stopDrive _ f
  | .clearFault _ f | .synchronize _ f | .reserve _ f | .release _ f | .seize _ f | .readStatus _ f
  | .readFaultRecord _ f | .readSpareMap _ f | .collectNotices _ f | .testNotice _ f | .cancel _ f | .setWindow _ f
  | .clearWindow _ f | .readWindows _ f | .setSettings _ f | .readSettings _ f | .readIdentity _ f => f.valid
  | .stringReset _ f cables => f.valid && cables.all SpindleSense.valid
  | .badFrame _ octets => Machine.isBadFrame octets
  | .dataOut _ _ _ block => decide (block.length = 512)
  | .spindleSensed _ x => x.present && x.valid
  | .onCylinder _ c => decide (c ≤ 568)
  | .sectorEvent _ _ r => r.valid
  | .packSeated _ p => p.valid
  | .kindInvalidRequest _ code f => f.valid && (decide (code.toNat = 0) || decide (30 < code.toNat))
  | .linkReset _ | .linkSignalLoss _ | .linkSignalAppears _ | .holdLineChange _ _ | .dataInSent _ | .dataWantedSent _
  | .reportSent _ | .dataWaitExpiry _ _ _ | .readTimerExpiry _ _ | .atSpeed _ | .spinTimeout _ | .startGapExpiry
  | .atRest _ | .seekTimerExpiry _ | .homeEvent _ | .recalibrateTimerExpiry _ | .doorOpened _ | .packRemoved _
  | .doorClosed _ | .writeFaultRaised _ | .writeFaultDropped _ | .writeProtectChange _ _ | .powerLoss => true

end Sys2Proof
end

