-- ==== Sys2Proof/Safety.lean ====
section
/-! DEFINITION. The terms statements are made in: the invariants of the machine, quiet states (nothing follows from an
event), and the commands by request kind. -/

namespace Sys2Proof.Machine

/-! ### Invariants -/

/-- The notice line of a port stands as its list and setting do (R165). -/
abbrev PortRec.lineHolds (pr : PortRec) : Prop := pr.noticeLine = (!pr.notices.isEmpty && pr.settings.noticeLineEnable)

/-- The settings of a port as they can stand (R68): UNIT_BASE a multiple of 8, the DATA_WAIT factor at most 15. -/
abbrev PortSettings.inRange (c : PortSettings) : Prop := c.unitBase % 8 = 0 ∧ c.waitFactor ≤ 15

/-- The string settings in their ranges (R68). -/
abbrev StringSettings.inRange (g : StringSettings) : Prop :=
  (1 ≤ g.retryLimit ∧ g.retryLimit ≤ 15) ∧ (1 ≤ g.suspectThreshold ∧ g.suspectThreshold ≤ 15)
    ∧ (1 ≤ g.preferenceMisses ∧ g.preferenceMisses ≤ 7) ∧ (4 ≤ g.overduePasses ∧ g.overduePasses ≤ 15)

/-- The link counts of a port have not passed their limit (R178). -/
abbrev PortRec.countsHold (pr : PortRec) : Prop :=
  pr.frameErrors ≤ 65535 ∧ pr.unknownTags ≤ 65535 ∧ pr.overruns ≤ 65535

/-- A notice list as it can stand (R163): one record for each kind and subject, occurrences 1 to 255. -/
abbrev PortRec.listHolds (pr : PortRec) : Prop :=
  (pr.notices.map fun n => (n.kind, n.subject)).Nodup ∧ ∀ n ∈ pr.notices, 1 ≤ n.occurrences ∧ n.occurrences ≤ 255

/-- What holds of every port. -/
abbrev PortRec.holds (pr : PortRec) : Prop := pr.lineHolds ∧ pr.settings.inRange ∧ pr.countsHold ∧ pr.listHolds

/-- The pack on a spindle, when there is one, is in canonical form. -/
def DriveRec.packHolds (dr : DriveRec) : Prop := ∀ p, dr.pack = some p → p.wf = true

/-- The request table as it can stand (R50, R51): at most 32 entries, in the arrival order, every place given already. -/
abbrev State.tableHolds (s : State) : Prop :=
  s.table.length ≤ 32 ∧ (s.table.map (·.rid)).Pairwise (· < ·) ∧ ∀ r ∈ s.table, r.rid < s.nextOrder

/-- The invariant of the machine: every port's notice line and list, settings and counts, the string settings, every pack,
the request table. -/
def State.Inv (s : State) : Prop :=
  (∀ p : Port, (s.port p).holds) ∧ s.settings.inRange ∧ (∀ d : Drive, (s.drive d).packHolds) ∧ s.tableHolds

/-! ### Quiet states -/

/-- No arm, buffer or SYNCHRONIZE waits for anything (R76, R118, R153): nobody waits for a free buffer, no waiting
SYNCHRONIZE is without awaited writes, no drive with a free arm has a queue. -/
abbrev State.idle (s : State) : Prop :=
  s.buffer.waiters = [] ∧ s.settled = [] ∧ ∀ d : Drive, (s.drive d).armFree = true → s.queue d = []

/-- Nothing follows from what stands: nothing waits, and no start can begin (R21). -/
abbrev State.quiet (s : State) : Prop := s.idle ∧ s.startable = none

/-- A drive that nothing in the table, the arm or the label concerns: no request, no arm owner, no label update. -/
abbrev State.unused (s : State) (d : Drive) : Prop :=
  (∀ q ∈ s.table, q.drive ≠ d) ∧ (s.drive d).owner = none ∧ (s.drive d).labelUpdate = none

/-- Nothing but a table entry of that place names a place of the arrival order: no chain link, arm, label update, path,
preference, segment or buffer. -/
abbrev State.unnamed (s : State) (n : Nat) : Prop :=
  (∀ q ∈ s.table, q.pred ≠ some n)
    ∧ (∀ d : Drive, (s.drive d).owner ≠ some n ∧ ∀ u ∈ (s.drive d).labelUpdate, u.rid ≠ n)
    ∧ s.path0.holds n = false ∧ s.path1.holds n = false ∧ n ∉ s.preference ∧ (∀ i : Fin 8, s.segments[i] ≠ some n)
    ∧ s.buffer.holder ≠ some n ∧ n ∉ s.buffer.waiters

/-- Nothing names the next place of the arrival order: as in every state a run reaches, since a place is given once (R50). -/
abbrev State.fresh (s : State) : Prop := (∀ q ∈ s.table, q.rid ≠ s.nextOrder) ∧ s.unnamed s.nextOrder

/-- A request that stands in the table, alone under its place of the arrival order (R50). -/
abbrev State.entry (s : State) (r : Request) : Prop :=
  r ∈ s.table ∧ (∀ q ∈ s.table, q.rid = r.rid → q = r) ∧ r.kind ≠ .labelUpdate

/-- A request of the table whose ending touches itself alone: reported and not detached, carrying no failure, no successor
behind it, and no report-after window met (R63, R175). -/
abbrev State.plain (s : State) (r : Request) : Prop :=
  s.entry r ∧ r.earlyEnded = false ∧ r.detached = false ∧ r.failure = none ∧ (∀ q ∈ s.table, q.pred ≠ some r.rid)
    ∧ (r.reachedArm = true → s.matching .reportAfter r.port r.drive r.kind r.extent = [])

/-- A request after whose ending nothing follows: the state is quiet, the request plain and awaited by no SYNCHRONIZE, and
nothing else is queued for its drive. -/
abbrev State.endsQuietly (s : State) (r : Request) : Prop :=
  s.quiet ∧ s.plain r ∧ s.queue r.drive = [] ∧ r.earlyEffective = false

/-- A request that no path carries or is held for, and that waits for none. -/
abbrev State.pathless (s : State) (n : Nat) : Prop :=
  s.path0.holds n = false ∧ s.path1.holds n = false ∧ n ∉ s.preference

/-- A drive's record as its arm is sent to a cylinder (R27): on cylinder at once where it stands there, else SEEKING under the
seek timer of 80 ms. -/
def DriveRec.sentTo (dr : DriveRec) (c : Nat) : DriveRec :=
  if dr.curCyl = c then { dr with arm := .onCylinder, retryMark := false }
  else { dr with tgtCyl := c, arm := .seeking, seekTimer := some 80000 }

/-- A request whose drive's arm is sent so: POSITIONED, or SEEKING. -/
def Request.sentBy (r : Request) (dr : DriveRec) (c : Nat) : Request :=
  { r with state := if dr.curCyl = c then .positioned else .seeking }

/-- The state with a table request's record replaced. -/
def State.withRequest (s : State) (r : Request) : State :=
  { s with table := s.table.map fun q => if q.rid = r.rid then r else q }

/-- The states differ at most in the frames the ports have waiting and are sending (R181). -/
def State.sameButFrames (s t : State) : Prop :=
  t = { s with ports := t.ports } ∧ ∀ p : Port, ∃ w x, t.port p = { s.port p with wanted := w, sending := x }

/-- A port with a notice posted into its list, its line as the setting has it (R163, R165). -/
def PortRec.posted (pr : PortRec) (k : NoticeKind) (sub : Subject) (det : NoticeDetails) : PortRec :=
  { pr with notices := postInto pr.notices k sub det, noticeLine := pr.settings.noticeLineEnable }

/-- A state as the spares-low check leaves it (R132): where the drive's check is armed and 8 or fewer alternates are free, every
port has SPARES_LOW posted with the drive as subject and the check is off; the state itself where not. -/
def State.sparesWarned (s : State) (d : Drive) : State :=
  if (s.drive d).map.armed = true ∧ (freeIndices (s.drive d).map.entries).length ≤ 8 then
    { s.onDrive d fun dr => { dr with map := { dr.map with armed := false } } with
      ports := s.ports.map fun pr => pr.posted .sparesLow (.drive d) .none }
  else s

/-! ### Cuts, fan-outs and paths handed on -/

/-- What a cut leaves of a drive's pack (R17): the pack as it was where no leg records; else every sector as it was but the
one being recorded, which holds a check code that does not agree with its octets. A sector whose ID field fails its tests
is not being recorded (R13). -/
def State.packCut (s : State) (d : Drive) (pk : Option Pack) : Prop :=
  (s.recording d = none → pk = (s.drive d).pack) ∧ ((s.drive d).pack = none → pk = none)
    ∧ ∀ r p, s.recording d = some r → (s.drive d).pack = some p → p.wf = true →
      let l := s.leg r
      let n := (s.drive d).underHeads l.sector
      let cut := decide (writeCondition (s.drive d) l (p.read n) = none) && decide (n < 218496)
      ∃ q, pk = some q ∧ q.wf = true ∧ (∀ m, m ≠ n → q.read m = p.read m)
        ∧ (cut = true → (q.read n).data.check ≠ checkCode (q.read n).data.block
            ∨ (q.read n).id.check ≠ checkCode (q.read n).id.covered)
        ∧ (cut = false → q.read n = p.read n)

/-- What a path becomes as it is handed on (R96): RESERVED for the head of the preference list, or FREE. -/
def PathState.handed : List Nat → PathState
  | n :: _ => .reserved n
  | [] => .free

/-- The deferred record after an early-ended write fails (R149, R150): made, or counted and added to. -/
def Request.foldInto (r : Request) (e : Ending) : Option DeferredRec → DeferredRec
  | none =>
    { tag := r.tag, addr := e.failing.getD r.addr, detail := e.detail, failures := 1, residual := r.count - r.blocksDone }
  | some x =>
    { x with failures := min 255 (x.failures + 1), residual := min 65535 (x.residual + (r.count - r.blocksDone)) }

/-- The early-ended writes of a drive and port, in arrival order. -/
def State.earlyWrites (s : State) (d : Drive) (p : Port) : List Request :=
  s.table.filter fun q => decide (q.drive = d) && decide (q.port = p) && q.earlyEnded

/-- The deferred record of a port for a drive after a stop or fault has folded the drive's early-ended writes (R35, R38). -/
def State.foldedRecord (s : State) (d : Drive) (p : Port) : Option DeferredRec :=
  (s.earlyWrites d p).foldl
    (fun x q => some (q.foldInto (Ending.at .ended .driveFault (addrOf (blockOf q.addr + q.nextBlock))) x))
    (ofPort (s.drive d).deferred p)

/-- Whether that folding makes a record, and so posts DEFERRED_ERROR (R149). -/
def State.foldsAnew (s : State) (d : Drive) (p : Port) : Bool :=
  (ofPort (s.drive d).deferred p).isNone && !(s.earlyWrites d p).isEmpty

/-- A port's notice list after that folding. -/
def State.foldedNotices (s : State) (d : Drive) (p : Port) : List Notice :=
  if s.foldsAnew d p then postInto (s.port p).notices .deferredError (.drive d) .none else (s.port p).notices

/-- The requests of a drive end one by one in a fan-out: places rise, no label update, no chain member waits among or behind
them, no report-after window is met. -/
abbrev State.fansPlainly (s : State) (d : Drive) : Prop :=
  s.tableHolds ∧ (s.drive d).labelUpdate = none ∧ (∀ q ∈ s.table, q.kind ≠ .labelUpdate)
    ∧ ∀ q ∈ s.table, q.drive = d → q.state ≠ .waitingChain ∧ (∀ x ∈ s.table, x.pred ≠ some q.rid)
      ∧ (q.reachedArm = true → s.matching .reportAfter q.port q.drive q.kind q.extent = [])

/-- What a fan-out over a drive's requests leaves (R35, R38): all but the `kept` ones leave the table and give back what they
held; each but an early-ended or detached one is reported, in arrival order, with the ending `e`, or ABANDONED CANCELLED when
a cancel pended; its chain is broken; the other drives stand as they were. -/
def State.fannedOut (s u : State) (d : Drive) (e : Ending) (kept : Request → Bool) : Prop :=
  let gone := s.table.filter fun q => decide (q.drive = d) && !kept q
  let told := fun (p : Port) => gone.filter fun q => decide (q.port = p) && !q.earlyEnded && !q.detached
  u = { s with
      drives := u.drives, ports := u.ports, table := s.table.filter fun q => decide (q.drive ≠ d) || kept q
      path0 := u.path0, path1 := u.path1, preference := u.preference, segments := u.segments, buffer := u.buffer
      freeCount := u.freeCount }
    ∧ (∀ p : Port, u.port p = { s.port p with
        reports := (s.port p).reports ++ (told p).map fun q =>
          endingReport s q (if q.cancelPending then Ending.cancelled else e) .none
        marker := (s.port p).marker.map fun m =>
          if (told p).any fun q => decide (m.member = some q.rid) then { m with standing := .endedOther } else m
        notices := (u.port p).notices, noticeLine := (u.port p).noticeLine })
    ∧ (∀ i : Fin 8, u.segments[i] = s.segments[i].filter fun n => !(gone.any fun q => q.rid == n))
    ∧ (∀ q ∈ gone, u.path0.holds q.rid = false ∧ u.path1.holds q.rid = false ∧ q.rid ∉ u.preference
        ∧ u.buffer.holder ≠ some q.rid ∧ q.rid ∉ u.buffer.waiters)
    ∧ ∀ x : Drive, x ≠ d → u.drive x = s.drive x

/-- The CLEAR FAULT requests of a drive's clearing end each for itself alone (R40): places rise, and each is reported, has been
no arm owner, and is named by nothing else. -/
abbrev State.clearsPlainly (s : State) (d : Drive) : Prop :=
  s.tableHolds ∧ ∀ q ∈ s.clearers d, s.unnamed q.rid ∧ q.earlyEnded = false ∧ q.detached = false ∧ q.failure = none
    ∧ q.reachedArm = false

/-- What the end of a drive's clearing leaves (R40): the given requests are out of the table, each reported in arrival order with
the ending `e`, its chain broken; every record but those of the drive and of the ports stands as it was. -/
def State.clearedOut (s t : State) (d : Drive) (gone : List Request) (e : Ending) : Prop :=
  t = { s with drives := t.drives, ports := t.ports, table := s.table.filter fun q => decide (q ∉ gone) }
    ∧ (∀ x : Drive, x ≠ d → t.drive x = s.drive x)
    ∧ ∀ p : Port,
      let told := gone.filter fun q => decide (q.port = p)
      t.port p = { s.port p with
        reports := (s.port p).reports ++ told.map fun q => endingReport s q e .none
        marker := (s.port p).marker.map fun m =>
          if told.any fun q => decide (m.member = some q.rid) then { m with standing := .endedOther } else m
        notices := (t.port p).notices, noticeLine := (t.port p).noticeLine }

/-- A drive's record with its arm at rest and its timers stopped (R35, R38). -/
def DriveRec.still (dr : DriveRec) : DriveRec :=
  { dr with
    arm := .idle, owner := none, spinTimer := none, seekTimer := none, recalTimer := none, retryMark := false
    clearing := false, load := LoadRec.initial }

/-- What the fault of a drive in the midst of its requests leaves (R38): the fault record, a recording leg cut, the early-ended
writes folded, every request but SYNCHRONIZE ended ENDED DRIVE_FAULT, DRIVE_FAULTED posted to all four ports. -/
def State.faultedBy (s u : State) (d : Drive) (k : FaultKind) (owner : Option (Port × Nat)) : Prop :=
  s.fannedOut u d (Ending.make .ended .driveFault) (fun q => decide (q.kind = .synchronize) && !q.earlyEnded)
    ∧ u.drive d = { (s.drive d).still with
        state := .faulted, deferred := (u.drive d).deferred, pack := (u.drive d).pack
        fault := some { kind := k, curCyl := (s.drive d).curCyl, tgtCyl := (s.drive d).tgtCyl, owner := owner
                        collected := false } }
    ∧ s.packCut d (u.drive d).pack
    ∧ (∀ p : Port, ofPort (u.drive d).deferred p = s.foldedRecord d p)
    ∧ ∀ p : Port, (u.port p).notices = postInto (s.foldedNotices d p) .driveFaulted (.drive d) .none
        ∧ (u.port p).noticeLine = (s.port p).settings.noticeLineEnable

/-- A request of the table that is reported when it ends: neither early-ended nor detached, carrying no failure. -/
abbrev State.single (s : State) (r : Request) : Prop :=
  s.entry r ∧ r.earlyEnded = false ∧ r.detached = false ∧ r.failure = none

/-- The sector of a leg of the drive's arm owner is passing under the heads, nothing pending on the request (R98). -/
abbrev State.onSector (s : State) (d : Drive) (r : Request) : Prop :=
  s.powered = true ∧ (s.drive d).motor = .atSpeed ∧ (s.drive d).state = .ready ∧ (s.drive d).owner = some r.rid
    ∧ s.entry r ∧ r.drive = d ∧ (r.state = .transferring ∨ r.state = .sparing) ∧ r.phase = .passing
    ∧ r.cancelPending = false ∧ r.detached = false ∧ r.held = none

/-- Path 0 carries the request, and nothing else holds a path for it. -/
abbrev State.onPath0 (s : State) (r : Request) : Prop :=
  s.path0 = .claimed r.rid ∧ s.path1.holds r.rid = false ∧ r.rid ∉ s.preference

/-- Path 0 handed on (R96). -/
def State.path0Handed (s : State) : State :=
  { s with path0 := PathState.handed s.preference, preference := s.preference.tail }

/-- A write's record as the end of a round leaves it (R101, R103): the other half current, the one used up WANTED for the round
two beyond it, where the request has one, or EMPTY. -/
def Request.turned (r : Request) : Request :=
  let more := 12 * (r.round + 2) < r.count
  { r with curHalf := !r.curHalf }.setHalf r.curHalf
    { state := if more then .wanted else .empty, round := if more then r.round + 2 else r.round, blocks := []
      asked := false, timer := none }

/-- The data-wanted frame that goes with it, given to the port (R103). -/
def State.askedOn (s : State) (r : Request) : State :=
  if 12 * (r.round + 2) < r.count then
    s.onPort r.port fun pr => { pr with wanted := pr.wanted ++
      [{ rid := r.rid, tag := r.tag, first := 12 * (r.round + 2), blocks := min 12 (r.count - 12 * (r.round + 2)) }] }
  else s

/-! ### Arrivals -/

/-- The port takes a request frame with this tag: power, ONLINE (R177), room for its report (R180), the tag free
(R47 check 1). -/
abbrev State.takes (s : State) (p : Port) (f : RequestFrame) : Prop :=
  s.powered = true ∧ (s.port p).online = true ∧ s.hasRoom p = true ∧ s.tagged? p f.tagNumber = none

/-- The frame's unit names a drive that is not ABSENT (R179, R47 check 3). -/
abbrev State.names (s : State) (p : Port) (f : RequestFrame) (d : Drive) : Prop :=
  s.mapUnit p f.unit.toNat = some d ∧ (s.drive d).state ≠ .absent

/-- A request passes checks 1, 2, 4 and 5 (R47): the port takes the frame, its operands are in range, the strap permits
it. -/
abbrev State.admits (s : State) (k : Kind) (p : Port) (f : RequestFrame) (o : Operands) : Prop :=
  s.takes p f ∧ checkFields k f = .ok o ∧ (needsStrap k f o = true → (s.port p).maintStrap = true)

/-- A request for a drive passes checks 1 to 7 (R47): with `admits`, the unit names the drive, a chain member names its
predecessor's drive, and a request that takes an entry finds room. -/
abbrev State.reaches (s : State) (k : Kind) (p : Port) (f : RequestFrame) (d : Drive) (o : Operands) : Prop :=
  s.admits k p f o ∧ s.names p f d ∧ (∀ m ∈ s.predecessor? p k, m.drive = d)
    ∧ (k.tableEntry = true → takesNoEntry k o (s.predecessor? p k) = false → s.tableIsFull p = false)

/-- A drive in a state that passes the request kind at checks 8 and 9 (R47): READY, or exempt from both as CLEAR FAULT is, or
START DRIVE on a drive that is not FAULTED. -/
abbrev DriveRec.serves (dr : DriveRec) (k : Kind) : Prop :=
  dr.state = .ready ∨ k = .clearFault ∨ (k = .startDrive ∧ dr.state ≠ .faulted)

/-- Nothing at a drive turns a drive-using request of the port away at checks 10 to 12 (R47). -/
abbrev DriveRec.clear (dr : DriveRec) (p : Port) : Prop :=
  (dr.unit.owner = none ∨ dr.unit.owner = some p) ∧ ofPort dr.unit.attention p = none ∧ ofPort dr.deferred p = none

/-- A request for a READY drive passes every check (R47): checks 8 to 12 at the drive, no write protection for a
write-class kind, no stopping window, and for FORMAT TRACK the map test (R135). -/
abbrev State.passes (s : State) (k : Kind) (p : Port) (f : RequestFrame) (d : Drive) (o : Operands) : Prop :=
  s.reaches k p f d o ∧ (s.drive d).state = .ready ∧ (s.drive d).clear p
    ∧ (k.writeClass = true → (s.drive d).writeProtect = false) ∧ s.stoppingWindows p d k f.passWatch o = []
    ∧ (k = .formatTrack → trackInMap (s.drive d).map.entries (trackOf o.addr.cyl o.addr.head) = false)

/-- A refused table-entry request closes the port's open chain (R49). -/
def State.chainClosed (s : State) (p : Port) (k : Kind) : State :=
  if k.tableEntry then s.onPort p fun pr => { pr with marker := none } else s

/-! ### The request commands by kind -/

/-- The command of an arm-using request kind. -/
def armCommand (k : Kind) (p : Port) (f : RequestFrame) : Option Instr :=
  match k with
  | .readBlocks => some (.readBlocks p f)
  | .writeBlocks => some (.writeBlocks p f)
  | .writeAndCheck => some (.writeAndCheck p f)
  | .checkBlocks => some (.checkBlocks p f)
  | .position => some (.position p f)
  | .recalibrate => some (.recalibrate p f)
  | .spareTrack => some (.spareTrack p f)
  | .returnAlternate => some (.returnAlternate p f)
  | .formatTrack => some (.formatTrack p f)
  | .writeLabel => some (.writeLabel p f)
  | _ => none

/-- The command of any request kind but STRING RESET. -/
def requestCommand (k : Kind) (p : Port) (f : RequestFrame) : Option Instr :=
  match k with
  | .startDrive => some (.startDrive p f)
  | .stopDrive => some (.stopDrive p f)
  | .clearFault => some (.clearFault p f)
  | .synchronize => some (.synchronize p f)
  | .reserve => some (.reserve p f)
  | .release => some (.release p f)
  | .seize => some (.seize p f)
  | .readStatus => some (.readStatus p f)
  | .readFaultRecord => some (.readFaultRecord p f)
  | .readSpareMap => some (.readSpareMap p f)
  | .collectNotices => some (.collectNotices p f)
  | .testNotice => some (.testNotice p f)
  | .cancel => some (.cancel p f)
  | .setWindow => some (.setWindow p f)
  | .clearWindow => some (.clearWindow p f)
  | .readWindows => some (.readWindows p f)
  | .setSettings => some (.setSettings p f)
  | .readSettings => some (.readSettings p f)
  | .readIdentity => some (.readIdentity p f)
  | k => armCommand k p f

end Sys2Proof.Machine
end

