-- ==== Sys2Proof/Certificates/Slice0/Obligations.lean ====
section
/-! DEFINITION. The statements about the Morcant 4170: its steps and invariants, resets, arrivals and refusals, requests
entered and chosen, immediate requests, the ports, the spindles, and the functions of the pack, map and windows. -/

open Sys2Proof Sys2Proof.Machine

/-! ### Steps and invariants -/

/-- A step runs the command at the front of the queue on the state with the queue's rest. -/
def Obligations.StepRunsFront : Prop :=
  ∀ (c : Instr) (rest : List Instr) (s : State), s.pending = c :: rest → step s = exec c { s with pending := rest }

/-- With nothing waiting a step of a powered 4170 is one microsecond of the clock (log entry 2, the model's choice): the
running timers count down, the elapsed time in the sector counts up to 699 at drives AT_SPEED (R31), and nothing else
changes. An unpowered 4170 takes no tick (log entry 6, the model's reading of R17 and R71). -/
def Obligations.IdleStepIsOneMicrosecond : Prop :=
  ∀ s : State, s.pending = [] →
    (s.powered = false → step s = .next s)
    ∧ (s.powered = true → ∃ t, step s = .next t
        ∧ t = { s with gapTimer := s.gapTimer.map (· - 1), table := s.table.map Request.tick, drives := t.drives }
        ∧ ∀ d : Drive, t.drive d = { s.drive d with
            elapsed := if (s.drive d).motor = .atSpeed then min 699 ((s.drive d).elapsed + 1) else (s.drive d).elapsed
            spinTimer := (s.drive d).spinTimer.map (· - 1), seekTimer := (s.drive d).seekTimer.map (· - 1)
            recalTimer := (s.drive d).recalTimer.map (· - 1) })

/-- No command touches the queue of waiting commands. -/
def Obligations.ExecKeepsQueue : Prop :=
  ∀ (c : Instr) (s t : State), exec c s = .next t → t.pending = s.pending

/-- Every command completes in every state: that nothing stops the 4170 is log entry 34, and that an event which does not
apply changes nothing is log entry 8, both the model's reading (DEDUCED); without power all but POWER_ON change nothing
(log entry 6, DEDUCED). -/
def Obligations.EveryCommandCompletes : Prop :=
  ∀ (c : Instr) (s : State), (∃ t, exec c s = .next t)
    ∧ (s.powered = false → (∀ x, c ≠ .powerOn x) → exec c s = .next s)

/-- The invariant is kept by every step that takes well-formed commands: each port's notice line stands as its list
and setting do (R165), its notice list holds one record for each kind and subject with 1 to 255 occurrences (R163),
its settings and counts stay in range (R68, R178), the string settings stay in range, every pack stays in canonical
form, and the request table holds at most 32 entries in rising arrival order, every place given once (R50, R51).
Places as unbounded numbers are log entry 32, the model's choice. -/
def Obligations.InvariantKeptByStep : Prop :=
  ∀ s t : State, (∀ c ∈ s.pending, c.wellFormed = true) → s.Inv → step s = .next t → t.Inv

/-- The machine right after reset meets the invariant. -/
def Obligations.ResetMeetsInvariant : Prop := State.reset.Inv

/-! ### Power and resets -/

/-- Power-on gives every record its power-on value (R18, R19, R71, R89, R92, R100, R115, R118, R154, R168, R169, R177) and
keeps the ports' straps; the drives found with their start strap on stand in the start list in ascending order (R20), and
the first of them with a pack seated and the door closed starts at once (R21): it leaves the list, STARTING and
ACCELERATING under the spin timer of 45 s, the gate closed under the gap timer of 8 s. The straps, and what the operands
sense, are log entries 1, 9 and 14, the model's choice. -/
def Obligations.PowerOnValues : Prop :=
  ∀ (x : PowerOnSense) (s : State),
    let pack := fun (d : Drive) =>
      match x.spindles[d].pack with
      | .same => (s.drive d).pack
      | .none => none
      | .seated q => some q
    let sensed := fun (d : Drive) =>
      if x.spindles[d].present = true then
        { DriveRec.initial with
          state := .stopped, doorClosed := x.spindles[d].doorClosed, writeProtect := x.spindles[d].writeProtect
          writeFault := x.spindles[d].writeFault, startStrap := x.spindles[d].startStrap
          packSeated := (pack d).isSome, pack := pack d }
      else { DriveRec.initial with pack := (s.drive d).pack }
    let strapped := allDrives.filter fun d => x.spindles[d].startStrap && x.spindles[d].present
    let first := strapped.find? fun d => (pack d).isSome && x.spindles[d].doorClosed
    ∃ t, exec (.powerOn x) s = .next t
      ∧ t = { State.reset with
          drives := t.drives, ports := t.ports, freeCount := s.freeCount, pending := s.pending
          startList := strapped.filter fun d => decide (first ≠ some d)
          gateOpen := first.isNone, gapTimer := first.map fun _ => 8000000 }
      ∧ (∀ p : Port, t.port p =
          PortRec.initial (s.port p).maintStrap (s.port p).baseStrap (ofPort x.hold p))
      ∧ ∀ d : Drive, t.drive d =
          if first = some d then
            { sensed d with state := .starting, motor := .accelerating, spinTimer := some 45000000 }
          else sensed d

/-- Loss of power stops the 4170: every leg that is recording is cut, the sector being recorded left with a wrong check code
and no other sector changed (R17), and where no leg records nothing but the power changes. That every record stands as it
was until the next power-on is log entry 6, the model's reading (DEDUCED), not R17's. -/
def Obligations.PowerLossKeepsPacks : Prop :=
  ∀ s : State, s.powered = true →
    ∃ t, exec .powerLoss s = .next t
      ∧ t = { s with powered := false, drives := t.drives, freeCount := t.freeCount }
      ∧ (∀ d : Drive, t.drive d = { s.drive d with pack := (t.drive d).pack } ∧ s.packCut d (t.drive d).pack)
      ∧ ((∀ d : Drive, s.recording d = none) → t = { s with powered := false })

/-- A cut leaves the field being recorded with a check code that does not agree with its octets, whatever the octets the cut
leaves there (R17; the octets are free values, log entry 4): the data field's, or the ID field's. The cut of a drive's leg
does that to the sector being recorded and to nothing else of the drive or the string; a drive without a recording leg
stands as it was. Loss of power, a stop, a fault and a string reset cut so. -/
def Obligations.CutLeavesWrongCheck : Prop :=
  (∀ (n : Nat) (both : Bool) (old new : Sector),
    let x := cutSector n both old new
    x.data.check ≠ checkCode x.data.block ∨ x.id.check ≠ checkCode x.id.covered)
  ∧ ∀ (s : State) (d : Drive),
    let t := s.cutLeg d
    t = { s with drives := t.drives, freeCount := t.freeCount } ∧ (∀ e : Drive, e ≠ d → t.drive e = s.drive e)
      ∧ t.drive d = { s.drive d with pack := (t.drive d).pack } ∧ s.packCut d (t.drive d).pack
      ∧ (s.recording d = none → t = s)

/-- A port reset, by a LINK RESET frame or the loss of the signal (R184): the outbound side emptied, the marker closed, the
settings at their defaults, the port's reservations ended, the port out of every wanted set, its windows FREE, its list
holding the ATTENTION notices of PORT_RESET alone; its counts, straps, deferred records and recovered counts, and the other
ports' reports, settings and windows, as they were. Of the port's requests (R72) an early-ended one and one TRANSFERRING or
in SPARING stays, detached, its timers stopped; any other leaves without a report and gives back what it held. Each other
port in the wanted set of a drive that was reserved for the port is told DRIVE_FREE (R162). The order of the drives in these
notices is log entry 38, the model's choice. -/
def Obligations.PortResetLeaves : Prop :=
  ∀ (s : State) (p : Port) (c : Instr), (c = .linkReset p ∨ c = .linkSignalLoss p) → s.powered = true →
    (s.port p).online = true →
    (s.entriesOf p = [] → s.quiet →
    ∃ t, exec c s = .next t
      ∧ t = { s with drives := t.drives, ports := t.ports, windows := t.windows }
      ∧ (t.port p = { s.port p with
          online := decide (c = .linkReset p), reports := [], wanted := [], sending := none, marker := none
          settings := PortSettings.initial (s.port p).baseStrap, notices := (t.port p).notices
          noticeLine := !(t.port p).notices.isEmpty })
      ∧ (t.port p).notices = (allDrives.filter fun d => decide ((s.drive d).state ≠ .absent)).map (fun d =>
          { kind := .attention, subject := .drive d, occurrences := 1, details := .reason .portReset })
      ∧ (∀ q : Port, q ≠ p → (t.port q).reports = (s.port q).reports ∧ (t.port q).settings = (s.port q).settings
          ∧ (t.port q).marker = (s.port q).marker ∧ (t.port q).online = (s.port q).online)
      ∧ (∀ i : Fin 4, t.windows[i] = s.windows[i].filter (fun w => w.owner != p))
      ∧ ∀ d : Drive, t.drive d = { s.drive d with unit := (t.drive d).unit }
          ∧ (t.drive d).unit.owner = (s.drive d).unit.owner.filter (· != p)
          ∧ (∀ q : Port, ofPort (t.drive d).unit.wanted q =
              (ofPort (s.drive d).unit.wanted q && q != p && (s.drive d).unit.owner != some p))
          ∧ ∀ q : Port, ofPort (t.drive d).unit.attention q =
              if q = p ∧ (s.drive d).state ≠ .absent then some .portReset else ofPort (s.drive d).unit.attention q)
    ∧ (s.tableHolds → (∀ q ∈ s.table, q.kind ≠ .labelUpdate) →
      let stays := fun (r : Request) => r.earlyEnded || decide (r.state = .transferring) || decide (r.state = .sparing)
      let gone := s.table.filter fun r => decide (r.port = p) && !r.detached && !stays r
      let left := fun (n : Nat) => gone.any fun r => r.rid == n
      let freed := fun (q : Port) => allDrives.filter fun d =>
        decide ((s.drive d).unit.owner = some p) && ofPort (s.drive d).unit.wanted q
      ∃ u : State, exec c s = .next (State.close s u)
        ∧ u = { s with
            drives := u.drives, ports := u.ports, table := u.table, path0 := u.path0, path1 := u.path1
            preference := u.preference, segments := u.segments, buffer := u.buffer, windows := u.windows }
        ∧ u.table = (s.table.filter fun r => !left r.rid).map (fun r =>
            if r.port = p ∧ r.detached = false then
              { r with
                half0 := { r.half0 with timer := none }, half1 := { r.half1 with timer := none }, readTimer := none
                detached := true }
            else r)
        ∧ (∀ i : Fin 8, u.segments[i] = s.segments[i].filter fun n => !left n)
        ∧ (∀ r ∈ gone, u.path0.holds r.rid = false ∧ u.path1.holds r.rid = false ∧ r.rid ∉ u.preference
            ∧ u.buffer.holder ≠ some r.rid ∧ r.rid ∉ u.buffer.waiters)
        ∧ (u.port p = { s.port p with
            online := decide (c = .linkReset p), reports := [], wanted := [], sending := none, marker := none
            settings := PortSettings.initial (s.port p).baseStrap, notices := (u.port p).notices
            noticeLine := !(u.port p).notices.isEmpty })
        ∧ (u.port p).notices = (allDrives.filter fun d => decide ((s.drive d).state ≠ .absent)).map (fun d =>
            { kind := .attention, subject := .drive d, occurrences := 1, details := .reason .portReset })
        ∧ (∀ q : Port, q ≠ p → u.port q =
            if (freed q).isEmpty then s.port q
            else { s.port q with
              notices := (freed q).foldl (fun ns d => postInto ns .driveFree (.drive d) .none) (s.port q).notices
              noticeLine := (s.port q).settings.noticeLineEnable })
        ∧ (∀ i : Fin 4, u.windows[i] = s.windows[i].filter (fun w => w.owner != p))
        ∧ ∀ d : Drive,
            let leaves := gone.any fun r => decide (r.drive = d) && decide ((s.drive d).owner = some r.rid)
            u.drive d = { s.drive d with
              unit := (u.drive d).unit, owner := if leaves then none else (s.drive d).owner
              retryMark := if leaves then false else (s.drive d).retryMark
              arm := if leaves = true ∧ (s.drive d).arm = .onCylinder then .idle else (s.drive d).arm }
            ∧ (u.drive d).unit.owner = (s.drive d).unit.owner.filter (· != p)
            ∧ (∀ q : Port, ofPort (u.drive d).unit.wanted q =
                (ofPort (s.drive d).unit.wanted q && q != p && (s.drive d).unit.owner != some p))
            ∧ ∀ q : Port, ofPort (u.drive d).unit.attention q =
                if q = p ∧ (s.drive d).state ≠ .absent then some .portReset else ofPort (s.drive d).unit.attention q)

/-- A string reset (R71, R43, R162, R176, R185), whatever the table and the start list hold: no request, path, segment,
buffer, window, reservation or deferred record survives; a recording leg is cut (R17); each drive goes on as its state
gives, a drive STARTING or STOPPING with its timers, a drive not found ABSENT with its serial, levels and map (R43); every
port's outbound side is emptied and its list holds the STRING_RESET notices, its line standing with the list (R165); the
hold line, settings, counts, link state and straps are kept; drives found ABSENT leave the start list, and what the list
lets start, starts (R21); the one report is the reset's own. The cables as operands are log entry 14, the order of the
drives in the notices log entry 38. -/
def Obligations.StringResetLeaves : Prop :=
  ∀ (s : State) (p : Port) (f : RequestFrame) (cables : Vector SpindleSense 8) (o : Operands),
    s.admits .stringReset p f o →
    ∃ t : State, exec (.stringReset p f cables) s =
        .next (State.flush ((State.settle s t).queueReport p (doneReport .stringReset f .none)))
      ∧ t = { s with
          drives := t.drives, ports := t.ports, freeCount := t.freeCount, table := [], path0 := .free, path1 := .free
          preference := [], segments := Vector.replicate 8 none, buffer := SpareBuffer.initial
          windows := Vector.replicate 4 none
          startList := s.startList.filter fun d => decide ((t.drive d).state ≠ .absent) }
      ∧ (t.startable = none → State.settle s t = t)
      ∧ (∀ d, t.startable = some d → State.settle s t = State.onDrive
          { t with startList := t.startList.filter (· != d), gateOpen := false, gapTimer := some 8000000 } d fun dr =>
            { dr with state := .starting, motor := .accelerating, spinTimer := some 45000000 })
      ∧ (∀ q : Port, t.port q = { s.port q with
          reports := [], wanted := [], sending := none, marker := none, notices := (t.port q).notices
          noticeLine := !(t.port q).notices.isEmpty && (s.port q).settings.noticeLineEnable })
      ∧ (∀ q : Port, (t.port q).notices = (allDrives.filter fun d => decide ((t.drive d).state ≠ .absent)).map (fun d =>
          { kind := .attention, subject := .drive d, occurrences := 1, details := .reason .stringReset }))
      ∧ ∀ d : Drive, ∃ pk : Option Pack, s.packCut d pk
          ∧ t.drive d =
            let dr := { s.drive d with pack := pk, labelUpdate := none, deferred := Vector.replicate 4 none }
            let noted := { UnitRec.initial with attention := Vector.replicate 4 (some .stringReset) }
            let gone := { dr with
              state := .absent, serial := none, map := MapRec.initial, suspects := [], unit := UnitRec.initial }
            match (s.drive d).state with
            | .absent =>
              if cables[d].present = true then
                let found := match cables[d].pack with
                  | .same => pk
                  | .none => none
                  | .seated q => some q
                { dr with
                  state := .stopped, motor := .off, arm := .idle, packSeated := found.isSome, pack := found
                  doorClosed := cables[d].doorClosed, writeProtect := cables[d].writeProtect
                  writeFault := cables[d].writeFault, startStrap := cables[d].startStrap, unit := noted }
              else gone
            | .stopped => if cables[d].present = true then { dr with unit := noted } else gone
            | .loading | .ready =>
              { dr.still with
                state := .loading, arm := .recalibrating, tgtCyl := 0, recalTimer := some 500000, unit := noted
                load := { LoadRec.initial with step := .recalibrate } }
            | .faulted =>
              if (s.drive d).clearing = true then
                { dr with arm := .idle, recalTimer := none, clearing := false, unit := noted }
              else { dr with unit := noted }
            | .starting | .stopping => { dr with unit := noted }

/-! ### Frames not taken, and refusals -/

/-- A request frame that is not taken: on an OFFLINE port nothing happens (R177); with no room for its report the
frame is discarded, counted and LINK_OVERRUN posted (R180); a tag in use is refused with the duplicate-tag marker, its
residual its count (R67), and an open chain closed (R47 check 1, R49, R65); a unit that is not mapped (R179), or is mapped to
an ABSENT drive, is refused UNIT_UNKNOWN (R47 check 3), a data request with the recovered count kept for the drive its unit is
mapped to (R148). Which octets are the count, and its size, in a data frame of other than six parameter octets or with a count
above 1,024, and the recovered count 0 where the unit is mapped to no drive, are log entry 27, the model's reading. -/
def Obligations.RequestNotTaken : Prop :=
  ∀ (k : Kind) (p : Port) (f : RequestFrame) (c : Instr) (s : State),
    (requestCommand k p f = some c ∨ (k = .stringReset ∧ ∃ x, c = .stringReset p f x)) → s.powered = true →
    ((s.port p).online = false → exec c s = .next s)
    ∧ ((s.port p).online = true → s.hasRoom p = false →
        exec c s = .next ((s.onPort p fun pr => { pr with overruns := min 65535 (pr.overruns + 1) }).post
          p .linkOverrun .none .none))
    ∧ ((s.port p).online = true → s.hasRoom p = true → (s.tagged? p f.tagNumber).isSome = true →
        ∃ rep, exec c s = .next ((s.onPort p fun pr => { pr with marker := none }).answer p rep)
          ∧ rep.tag = f.tagNumber ∧ rep.duplicate = true ∧ rep.kindCode = k.code ∧ rep.cls = .refused
          ∧ rep.detail = .tagInUse ∧ rep.residual = frameCount k f)
    ∧ (s.takes p f → k.carriesUnit = true →
        (∀ d, s.mapUnit p f.unit.toNat = some d → (s.drive d).state = .absent) →
        ∃ rep, exec c s = .next ((s.chainClosed p k).answer p rep)
          ∧ rep.tag = f.tagNumber ∧ rep.duplicate = false ∧ rep.kindCode = k.code ∧ rep.cls = .refused
          ∧ rep.detail = .unitUnknown ∧ rep.qualifier = .none ∧ rep.residual = frameCount k f
          ∧ rep.recoveredCount = match s.mapUnit p f.unit.toNat with
            | some d => if k.isData = true then (ofPort (s.drive d).recCounts p).count else 0
            | none => 0)

/-- A request of unknown kind is refused KIND_INVALID with its kind code as received, and an open chain closed (R45,
R47 check 2, R49, R65). -/
def Obligations.KindInvalidRefused : Prop :=
  ∀ (p : Port) (code : Octet) (f : RequestFrame) (s : State), s.takes p f →
    exec (.kindInvalidRequest p code f) s = .next ((s.onPort p fun pr => { pr with marker := none }).answer p
      { tag := f.tagNumber, duplicate := false, kindCode := code.toNat, cls := .refused, detail := .kindInvalid
        qualifier := .none, residual := 0, failing := none, recoveredBlocks := 0, recoveredCount := 0, body := .none })

/-- Check 10 (R49, R156): a drive-using request other than SEIZE that passes checks 8 and 9 of a drive another port
has reserved is refused DRIVE_RESERVED, its qualifier the owner, and its port joins the wanted set; attention and
deferred records stay. -/
def Obligations.ReservedRefused : Prop :=
  ∀ (k : Kind) (p q : Port) (f : RequestFrame) (c : Instr) (d : Drive) (o : Operands) (s : State),
    requestCommand k p f = some c → k.driveUsing = true → k ≠ .seize → s.reaches k p f d o →
    (s.drive d).serves k → (s.drive d).unit.owner = some q → q ≠ p →
    ∃ rep, exec c s = .next (((s.onDrive d fun dr =>
          { dr with unit := { dr.unit with wanted := setOfPort dr.unit.wanted p true } }).chainClosed p k).answer p rep)
      ∧ rep.tag = f.tagNumber ∧ rep.cls = .refused ∧ rep.detail = .driveReserved ∧ rep.qualifier = .port q
      ∧ rep.residual = frameCount k f

/-- Check 11 (R49, R161): a drive-using request that meets its port's attention on the drive is refused
ATTENTION_PENDING with the reason, and the attention becomes off. -/
def Obligations.AttentionRefused : Prop :=
  ∀ (k : Kind) (p : Port) (f : RequestFrame) (c : Instr) (d : Drive) (o : Operands) (s : State) (r : AttnReason),
    requestCommand k p f = some c → k.driveUsing = true → s.reaches k p f d o → (s.drive d).serves k →
    (k = .seize ∨ (s.drive d).unit.owner = none ∨ (s.drive d).unit.owner = some p) →
    ofPort (s.drive d).unit.attention p = some r →
    ∃ rep, exec c s = .next (((s.onDrive d fun dr =>
          { dr with unit := { dr.unit with attention := setOfPort dr.unit.attention p none } }).chainClosed p k).answer
            p rep)
      ∧ rep.tag = f.tagNumber ∧ rep.cls = .refused ∧ rep.detail = .attentionPending ∧ rep.qualifier = .reason r
      ∧ rep.residual = frameCount k f

/-- Check 12 (R49, R151): a drive-using request that meets its port's deferred record for the drive is answered with
class DEFERRED, the record its body, and the record is cleared. -/
def Obligations.DeferredRefused : Prop :=
  ∀ (k : Kind) (p : Port) (f : RequestFrame) (c : Instr) (d : Drive) (o : Operands) (s : State) (x : DeferredRec),
    requestCommand k p f = some c → k.driveUsing = true → s.reaches k p f d o → (s.drive d).serves k →
    (k = .seize ∨ (s.drive d).unit.owner = none ∨ (s.drive d).unit.owner = some p) →
    ofPort (s.drive d).unit.attention p = none → ofPort (s.drive d).deferred p = some x →
    ∃ rep, exec c s = .next (((s.onDrive d fun dr =>
          { dr with deferred := setOfPort dr.deferred p none }).chainClosed p k).answer p rep)
      ∧ rep.tag = f.tagNumber ∧ rep.cls = .deferred ∧ rep.body = .deferred x ∧ rep.residual = frameCount k f

/-- Check 14 (R49, R174): a request that stop-before windows stop is refused WINDOW_STOP, its qualifier the
lowest-numbered of them, and WINDOW_MATCH with its port, tag and matched track is posted to that window's owner. The
windows that stop it are the SET stop-before windows of its drive that match it, in number order, none when it carries
PASS_WATCH and all of them are its own port's (R174). A window matches (R173) a request of a windowed kind that is
write-class or met by access ANY, from a port in its scope, whose extent shares a track with its span, at the lowest track
they share. -/
def Obligations.WindowStopRefused : Prop :=
  (∀ (k : Kind) (p : Port) (f : RequestFrame) (c : Instr) (d : Drive) (o : Operands) (s : State) (w : Fin 4)
    (x : Window) (t : Nat) (rest : List (Fin 4 × Window × Nat)),
    requestCommand k p f = some c → k.windowed = true → s.reaches k p f d o → (s.drive d).state = .ready →
    (s.drive d).clear p → (k.writeClass = true → (s.drive d).writeProtect = false) →
    s.stoppingWindows p d k f.passWatch o = (w, x, t) :: rest →
    ∃ rep, exec c s = .next (((s.post x.owner .windowMatch (.window w) (.request p f.tagNumber t)).chainClosed p k).answer
          p rep)
      ∧ rep.tag = f.tagNumber ∧ rep.cls = .refused ∧ rep.detail = .windowStop ∧ rep.qualifier = .window w.val
      ∧ rep.residual = frameCount k f)
  ∧ ∀ (s : State) (p : Port) (d : Drive) (k : Kind) (o : Operands) (a : Action),
    (s.matching a p d k o.extent).Pairwise (·.1 < ·.1)
    ∧ (∀ (w : Fin 4) (x : Window) (t : Nat), (w, x, t) ∈ s.matching a p d k o.extent ↔
        s.windows[w] = some x ∧ x.action = a ∧ x.drive = d ∧ k.windowed = true
          ∧ (x.access = .any ∨ k.writeClass = true) ∧ (x.scope = .allPorts ∨ p ≠ x.owner)
          ∧ ∃ lo hi, o.extent = some (lo, hi) ∧ lo ≤ x.base + x.length - 1 ∧ x.base ≤ hi ∧ t = max lo x.base)
    ∧ s.stoppingWindows p d k false o = s.matching .stopBefore p d k o.extent
    ∧ s.stoppingWindows p d k true o =
        if ∀ m ∈ s.matching .stopBefore p d k o.extent, m.2.1.owner = p then []
        else s.matching .stopBefore p d k o.extent

/-- Checks 8 and 9 (R47): a drive-using request other than CLEAR FAULT is refused DRIVE_FAULTED on a FAULTED drive,
and, START DRIVE apart, DRIVE_NOT_READY with the state on a drive STOPPED, STARTING, LOADING or STOPPING. -/
def Obligations.NotReadyRefused : Prop :=
  ∀ (k : Kind) (p : Port) (f : RequestFrame) (c : Instr) (d : Drive) (o : Operands) (s : State),
    requestCommand k p f = some c → k.driveUsing = true → k ≠ .clearFault → s.reaches k p f d o →
    ((s.drive d).state = .faulted →
      ∃ rep, exec c s = .next ((s.chainClosed p k).answer p rep) ∧ rep.tag = f.tagNumber ∧ rep.cls = .refused
        ∧ rep.detail = .driveFaulted ∧ rep.qualifier = .none ∧ rep.residual = frameCount k f)
    ∧ (k ≠ .startDrive →
      ((s.drive d).state = .stopped ∨ (s.drive d).state = .starting ∨ (s.drive d).state = .loading
        ∨ (s.drive d).state = .stopping) →
      ∃ rep, exec c s = .next ((s.chainClosed p k).answer p rep) ∧ rep.tag = f.tagNumber ∧ rep.cls = .refused
        ∧ rep.detail = .driveNotReady ∧ rep.qualifier = .driveState (s.drive d).state
        ∧ rep.residual = frameCount k f)


/-! ### Requests entered and chosen -/

/-- An arm-using request accepted outside a chain while its drive's arm is not free takes an entry with the next place
of the arrival order and joins its drive's queue QUEUED (R50, R73); the marker names it when it carries CHAIN (R54); a
data request updates its port's recovered count for the drive (R148): a request of the class last accepted, or the first
one, keeps the count, one of the other class sets it to 0, and the class is held; nothing else changes but the frames
sent. -/
def Obligations.ArmRequestQueued : Prop :=
  ∀ (k : Kind) (p : Port) (f : RequestFrame) (c : Instr) (d : Drive) (o : Operands) (s : State),
    armCommand k p f = some c → s.passes k p f d o → (s.port p).marker = none → (s.drive d).armFree = false →
    (k.isData = true → (s.newRequest p d k f o).count ≠ 0) →
    let r := s.newRequest p d k f o
    (r.state = .queued ∧ r.rid = s.nextOrder ∧ r.drive = d ∧ r.passes = 0
      ∧ exec c s = .next (State.flush
          { (s.noteClass r).onPort p fun pr =>
              { pr with marker := if f.chain then some { member := some r.rid, drive := d, standing := .unended } else none }
            with table := s.table ++ [r], nextOrder := s.nextOrder + 1 }))
    ∧ (k.isData = false → s.noteClass r = s)
    ∧ (k.isData = true →
      let cls : DataClass := if k = .writeBlocks ∨ k = .writeAndCheck then .write else .read
      let old := ofPort (s.drive d).recCounts p
      s.noteClass r = s.onDrive d fun dr => { dr with
        recCounts := setOfPort dr.recCounts p
          { count := if old.cls = none ∨ old.cls = some cls then old.count else 0, cls := some cls } })

/-- A data request of count 0 outside a chain, or behind a member ended DONE, takes no entry and ends DONE NO_MOTION
in its arrival event (R50); carrying CHAIN it leaves the marker naming it as ended DONE (R54). -/
def Obligations.CountZeroEndsAtArrival : Prop :=
  ∀ (k : Kind) (p : Port) (f : RequestFrame) (c : Instr) (d : Drive) (o : Operands) (s : State),
    armCommand k p f = some c → k.isData = true → s.passes k p f d o →
    (∀ m, (s.port p).marker = some m → m.standing = .endedDone) → (s.newRequest p d k f o).count = 0 →
    ∃ rep, exec c s = .next (((s.noteClass (s.newRequest p d k f o)).onPort p fun pr =>
          { pr with marker := if f.chain then some { member := none, drive := d, standing := .endedDone } else none }).answer
            p rep)
      ∧ rep.tag = f.tagNumber ∧ rep.cls = .done ∧ rep.detail = .noMotion ∧ rep.residual = 0

/-- A member of a chain (R54): behind an unended member it takes an entry in WAITING_CHAIN, its link naming that
member; behind a member ended DONE an arm-using one is queued with chain precedence; on a broken chain it ends NOT_RUN
CHAIN_BROKEN without an entry, its residual its count, the recovered counts as they were. The tests made before NOT_RUN
are log entry 25. -/
def Obligations.ChainMemberTaken : Prop :=
  ∀ (k : Kind) (p : Port) (f : RequestFrame) (c : Instr) (d : Drive) (o : Operands) (s : State) (m : ChainMark),
    requestCommand k p f = some c → k.tableEntry = true → k ≠ .clearFault → s.passes k p f d o →
    (s.port p).marker = some m →
    let r := s.newRequest p d k f o
    let entered := fun (q : Request) =>
      { (s.noteClass r).onPort p fun pr =>
          { pr with marker := if f.chain then some { member := some r.rid, drive := d, standing := .unended } else none }
        with table := s.table ++ [q], nextOrder := s.nextOrder + 1 }
    (m.standing = .unended →
      exec c s = .next (State.flush (entered { r with state := .waitingChain, pred := m.member })))
    ∧ (m.standing = .endedDone → k.armUsing = true → (k.isData = true → r.count ≠ 0) → (s.drive d).armFree = false →
      exec c s = .next (State.flush (entered { r with chainPrecedence := true })))
    ∧ (m.standing = .endedOther →
      ∃ rep, exec c s = .next ((s.onPort p fun pr =>
            { pr with marker := if f.chain then some { member := none, drive := d, standing := .endedOther } else none }).answer
              p rep)
        ∧ rep.tag = f.tagNumber ∧ rep.cls = .notRun ∧ rep.detail = .chainBroken ∧ rep.residual = r.count)

/-- POSITION and RECALIBRATE chosen at once, the arm free and nothing queued (R77, R82, R27, R28): the request is arm
owner and SEEKING to its cylinder under the seek timer of 80 ms, or RECALIBRATING to cylinder 0 under the timer of 500
ms. -/
def Obligations.ArmKindChosen : Prop :=
  ∀ (k : Kind) (p : Port) (f : RequestFrame) (c : Instr) (d : Drive) (o : Operands) (s : State),
    armCommand k p f = some c → s.passes k p f d o → (s.port p).marker = none → (s.drive d).armFree = true → s.quiet →
    s.fresh →
    let r := s.newRequest p d k f o
    let u := fun (st : ReqState) => { s.onPort p fun pr =>
        { pr with marker := if f.chain then some { member := some r.rid, drive := d, standing := .unended } else none }
      with table := s.table ++ [{ r with state := st, reachedArm := true }], nextOrder := s.nextOrder + 1 }
    (∀ cyl, k = .position → o = .cylinder cyl → cyl ≠ (s.drive d).curCyl →
      exec c s = .next (State.flush ((u .seeking).onDrive d fun dr =>
        { dr with
          owner := some r.rid, retryMark := false, arm := .seeking, tgtCyl := cyl, seekTimer := some 80000 })))
    ∧ (k = .recalibrate →
      exec c s = .next (State.flush ((u .recalibrating).onDrive d fun dr =>
        { dr with
          owner := some r.rid, retryMark := false, arm := .recalibrating, tgtCyl := 0, recalTimer := some 500000
          seekTimer := none, afterHome := .finish })))

/-- A data request chosen at once, the arm free, nothing queued, no overlap and two segments free (R77, R82, R100,
R102, R103): it is arm owner, holds the two lowest free segments with half 0 current, has its data-wanted frames given
when it takes host data, and is SEEKING to its first block's physical cylinder, or POSITIONED when the arm is there. -/
def Obligations.DataRequestChosen : Prop :=
  ∀ (k : Kind) (p : Port) (f : RequestFrame) (c : Instr) (d : Drive) (o : Operands) (s : State) (a b : Fin 8)
    (rest : List (Fin 8)),
    armCommand k p f = some c → k.isData = true → s.passes k p f d o → (s.port p).marker = none →
    (s.drive d).armFree = true → s.quiet → s.fresh → (s.newRequest p d k f o).count ≠ 0 →
    s.barred (s.newRequest p d k f o) = false → s.freeSegments = a :: b :: rest →
    let r := s.newRequest p d k f o
    let cyl := cylOf (dataTrack (s.drive d).map.entries r 0).1
    let there := decide ((s.drive d).curCyl = cyl)
    let q := { r.withSegments a b with reachedArm := true, state := if there then .positioned else .seeking }
    let u := { (s.noteClass r).onPort p fun pr =>
        { pr with marker := if f.chain then some { member := some r.rid, drive := d, standing := .unended } else none }
      with
      table := s.table ++ [q], nextOrder := s.nextOrder + 1
      segments := (s.segments.set a.val (some r.rid) a.isLt).set b.val (some r.rid) b.isLt }
    let v := u.onDrive d fun dr =>
      if there then { dr with owner := some r.rid, retryMark := false, arm := .onCylinder }
      else { dr with owner := some r.rid, retryMark := false, arm := .seeking, tgtCyl := cyl, seekTimer := some 80000 }
    exec c s = .next (State.flush
      (if r.takesData then (if 12 < r.count then (v.giveWanted r 0).giveWanted r 1 else v.giveWanted r 0) else v))

/-- START DRIVE on a READY drive, and SYNCHRONIZE with no write awaited, end DONE, detail NONE, in their arrival event
(R23, R152): the table and the drives are as they were, a place in the arrival order is gone, the report is queued. -/
def Obligations.ControlDoneAtArrival : Prop :=
  ∀ (k : Kind) (p : Port) (f : RequestFrame) (c : Instr) (d : Drive) (o : Operands) (s : State),
    requestCommand k p f = some c → s.passes k p f d o → (s.port p).marker = none → s.quiet → s.fresh →
    (k = .startDrive ∨ (k = .synchronize ∧ s.awaited (s.newRequest p d k f o) = [])) →
    ∃ rep, exec c s = .next (State.flush
        { s.onPort p fun pr =>
            { pr with
              reports := pr.reports ++ [rep]
              marker := if f.chain then some { member := some s.nextOrder, drive := d, standing := .endedDone } else none }
          with nextOrder := s.nextOrder + 1 })
      ∧ rep.tag = f.tagNumber ∧ rep.cls = .done ∧ rep.detail = .none ∧ rep.residual = 0

/-- Drive-control requests that wait: START DRIVE on a drive STOPPED that may not start yet (the gate closed, no pack seated, the
door open, or two drives STARTING), or STOPPING, joins the start list once (R20, R21, R23); on a drive STOPPED with its pack seated, its door closed, the gate open and fewer than two drives
STARTING, nobody in the list ahead of it able to start, the start begins at once (R21); on a drive STARTING or LOADING it
only waits; and SYNCHRONIZE with writes awaited waits (R152); each in CONTROL_WAIT. A waiting SYNCHRONIZE whose last awaited
write has left is settled in that event (R153): DONE, or DEFERRED with the deferred record as its body, which is cleared. -/
def Obligations.ControlWaits : Prop :=
  (∀ (k : Kind) (p : Port) (f : RequestFrame) (c : Instr) (d : Drive) (o : Operands) (s : State),
    requestCommand k p f = some c → s.reaches k p f d o → (s.drive d).clear p → (s.port p).marker = none → s.quiet →
    let r := { s.newRequest p d k f o with state := .controlWait }
    let u := { s.onPort p fun pr =>
        { pr with marker := if f.chain then some { member := some r.rid, drive := d, standing := .unended } else none }
      with table := s.table ++ [r], nextOrder := s.nextOrder + 1 }
    (k = .startDrive →
      ((s.drive d).state = .stopping ∨ ((s.drive d).state = .stopped
        ∧ (s.gateOpen = false ∨ (s.drive d).packSeated = false ∨ (s.drive d).doorClosed = false
          ∨ 2 ≤ (allDrives.filter fun e => decide ((s.drive e).state = .starting)).length))) →
      exec c s = .next (State.flush
        { u with startList := if d ∈ s.startList then s.startList else s.startList ++ [d] }))
    ∧ (k = .startDrive → (s.drive d).state = .stopped → (s.drive d).packSeated = true → (s.drive d).doorClosed = true →
      s.gateOpen = true → (allDrives.filter fun e => decide ((s.drive e).state = .starting)).length < 2 →
      exec c s = .next (State.flush ({ u with gateOpen := false, gapTimer := some 8000000 }.onDrive d fun dr =>
        { dr with state := .starting, motor := .accelerating, spinTimer := some 45000000 })))
    ∧ (k = .startDrive → ((s.drive d).state = .starting ∨ (s.drive d).state = .loading) →
      exec c s = .next (State.flush u))
    ∧ (k = .synchronize → (s.drive d).state = .ready → s.awaited (s.newRequest p d k f o) ≠ [] →
      exec c s = .next (State.flush u)))
  ∧ ∀ (b s t : State) (r : Request), s.buffer.waiters = [] → s.settled = [r] → s.plain r → r.reachedArm = false → t.quiet →
    (ofPort (s.drive r.drive).deferred r.port = none → t = s.conclude r.rid (Ending.make .done .none) →
      b.close s = State.flush t)
    ∧ (∀ x, ofPort (s.drive r.drive).deferred r.port = some x →
      t = ((s.conclude r.rid (Ending.make .deferred .none)).onPort r.port fun pr =>
          { pr with reports := (s.port r.port).reports ++
              [endingReport s r (Ending.make .deferred .none) (.deferred x)] }).onDrive r.drive (fun dr =>
            { dr with deferred := setOfPort dr.deferred r.port none }) →
      b.close s = State.flush t)

/-- STOP DRIVE on a READY drive without other work (R35, R36): the drive becomes STOPPING at once, its motor COASTING
and its timers stopped; the request waits; a reservation is lost, RESERVATION_LOST going to its owner, DRIVE_FREE to each
wanted port, and the wanted set emptied (R159). With other requests at the drive, in no chain and no reservation standing: a
recording leg is cut, the early-ended writes are folded into the deferred records (R149), every other request ends ABANDONED,
DRIVE_STOPPED or CANCELLED (R35), and the STOP DRIVE alone of the drive's requests stays. -/
def Obligations.StopDriveStops : Prop :=
  ∀ (p : Port) (f : RequestFrame) (d : Drive) (o : Operands) (s : State), s.passes .stopDrive p f d o →
    (s.port p).marker = none →
    let r := { s.newRequest p d .stopDrive f o with state := .controlWait }
    let u := { s.onPort p fun pr =>
        { pr with marker := if f.chain then some { member := some r.rid, drive := d, standing := .unended } else none }
      with table := s.table ++ [r], nextOrder := s.nextOrder + 1 }
    let v := u.onDrive d fun dr =>
      { dr with
        state := .stopping, motor := .coasting, arm := .idle, spinTimer := none, seekTimer := none, recalTimer := none
        retryMark := false, clearing := false, load := LoadRec.initial }
    (s.quiet → s.fresh → s.unused d →
      exec (.stopDrive p f) s = .next (State.flush (v.loseReservation d))
      ∧ ((s.drive d).unit.owner = none → v.loseReservation d = v)
      ∧ ∀ q, (s.drive d).unit.owner = some q →
        let t := v.loseReservation d
        t = { v.onDrive d fun dr =>
            { dr with unit := { dr.unit with owner := none, wanted := Vector.replicate 4 false } } with ports := t.ports }
        ∧ ∀ x : Port,
            let told := if x = q then (v.port x).posted .reservationLost (.drive d) .none else v.port x
            t.port x = if ofPort (s.drive d).unit.wanted x = true then told.posted .driveFree (.drive d) .none else told)
    ∧ (s.fresh → s.fansPlainly d → (s.drive d).unit.owner = none →
      ∃ t, exec (.stopDrive p f) s = .next (State.close s t)
        ∧ u.fannedOut t d (Ending.make .abandoned .driveStopped) (fun q => q.rid == r.rid)
        ∧ t.drive d = { (s.drive d).still with
            state := .stopping, motor := .coasting, deferred := (t.drive d).deferred, pack := (t.drive d).pack }
        ∧ u.packCut d (t.drive d).pack
        ∧ (∀ x : Port, ofPort (t.drive d).deferred x = u.foldedRecord d x)
        ∧ ∀ x : Port, (t.port x).notices = u.foldedNotices d x
            ∧ (t.port x).noticeLine =
                if u.foldsAnew d x then (s.port x).settings.noticeLineEnable else (s.port x).noticeLine)

/-- CLEAR FAULT on a FAULTED drive whose record is collected (R40): AT_SPEED with no clearing it begins a recalibrate
and waits; AT_SPEED with a clearing in progress it joins it; with the motor COASTING the record is removed, the drive is
STOPPING and the request waits for rest; with the motor OFF the record is removed, the drive is STOPPED and the request
ends DONE at once; a reservation, here none, would be lost in both. Uncollected, or on a drive not FAULTED, it is refused
without an entry. -/
def Obligations.ClearFaultActs : Prop :=
  ∀ (p : Port) (f : RequestFrame) (d : Drive) (o : Operands) (s : State), s.reaches .clearFault p f d o →
    (s.drive d).clear p → (s.port p).marker = none → s.quiet → s.fresh →
    let r := { s.newRequest p d .clearFault f o with state := .controlWait }
    let u := { s.onPort p fun pr =>
        { pr with marker := if f.chain then some { member := some r.rid, drive := d, standing := .unended } else none }
      with table := s.table ++ [r], nextOrder := s.nextOrder + 1 }
    (∀ x, (s.drive d).state = .faulted → (s.drive d).fault = some x → x.collected = true →
      ((s.drive d).motor = .atSpeed → (s.drive d).clearing = false →
        exec (.clearFault p f) s = .next (State.flush (u.onDrive d fun dr =>
          { dr with
            clearing := true, arm := .recalibrating, tgtCyl := 0, recalTimer := some 500000, seekTimer := none })))
      ∧ ((s.drive d).motor = .atSpeed → (s.drive d).clearing = true →
        exec (.clearFault p f) s = .next (State.flush u))
      ∧ ((s.drive d).motor = .coasting → (s.drive d).unit.owner = none → s.unused d →
        exec (.clearFault p f) s = .next (State.flush (u.onDrive d fun dr =>
          { dr.still with fault := none, state := .stopping, motor := .coasting })))
      ∧ ((s.drive d).motor = .off → (s.drive d).unit.owner = none → d ∉ s.startList →
        ∃ rep, exec (.clearFault p f) s = .next (State.flush
            ({ s.onPort p fun pr =>
                { pr with
                  reports := pr.reports ++ [rep]
                  marker := if f.chain then some { member := some r.rid, drive := d, standing := .endedDone } else none }
              with nextOrder := s.nextOrder + 1 }.onDrive d fun dr => { dr with fault := none, state := .stopped }))
          ∧ rep.tag = f.tagNumber ∧ rep.cls = .done ∧ rep.detail = .none ∧ rep.residual = 0))
    ∧ (∀ x, (s.drive d).state = .faulted → (s.drive d).fault = some x → x.collected = false →
      ∃ rep, exec (.clearFault p f) s = .next (s.answer p rep) ∧ rep.tag = f.tagNumber ∧ rep.cls = .refused
        ∧ rep.detail = .faultNotCollected)
    ∧ ((s.drive d).state ≠ .faulted →
      ∃ rep, exec (.clearFault p f) s = .next (s.answer p rep) ∧ rep.tag = f.tagNumber ∧ rep.cls = .refused
        ∧ rep.detail = .notFaulted)

/-- Track-upkeep requests chosen at once, the arm free, nothing queued and no overlap (R77, R119, R131, R133 to R135):
each is arm owner with its operation, format or label record made, its arm under way; RETURN ALTERNATE of a home
without an assignment ends DONE, detail NONE. The label image taken at the choice is log entry 24. -/
def Obligations.UpkeepRequestChosen : Prop :=
  ∀ (k : Kind) (p : Port) (f : RequestFrame) (c : Instr) (d : Drive) (o : Operands) (s : State),
    armCommand k p f = some c → s.passes k p f d o → (s.port p).marker = none → (s.drive d).armFree = true → s.quiet →
    s.fresh → s.barred (s.newRequest p d k f o) = false → s.buffer.holder = none →
    let r := s.newRequest p d k f o
    let es := (s.drive d).map.entries
    let home := r.namedTrack
    let mark := fun (st : Standing) (pr : PortRec) =>
      { pr with marker := if f.chain then some { member := some r.rid, drive := d, standing := st } else none }
    let u := fun (q : Request) (cyl : Nat) =>
      { s.onPort p (mark .unended) with table := s.table ++ [q], nextOrder := s.nextOrder + 1 }.onDrive d fun dr =>
        { dr with owner := some r.rid, retryMark := false, arm := .seeking, tgtCyl := cyl, seekTimer := some 80000 }
    let held := { s.buffer with holder := some r.rid, slots := List.replicate 24 .unread }
    (k = .spareTrack → ∀ j, chooseAlternate es home = some j → cylOf (physicalTrack es home) ≠ (s.drive d).curCyl →
      exec c s = .next (State.flush
        { u { r with
              state := .sparing, reachedArm := true
              op := some { step := .readSource, home := home, source := lookupHome es home, alt := j, attempt := 1,
                           origin := .field, pos := 0, revs := 0 } } (cylOf (physicalTrack es home)) with
          buffer := held }))
    ∧ (k = .returnAlternate → ∀ j, lookupHome es home = some j → cylOf (altTrack j) ≠ (s.drive d).curCyl →
      exec c s = .next (State.flush
        { u { r with
              state := .sparing, reachedArm := true
              op := some { step := .readAlternate, home := home, source := some j, alt := j, attempt := 1,
                           origin := .field, pos := 0, revs := 0 } } (cylOf (altTrack j)) with
          buffer := held }))
    ∧ (k = .returnAlternate → lookupHome es home = none → s.matching .reportAfter p d k o.extent = [] →
      ∃ rep, exec c s = .next (State.flush
          ({ s.onPort p fun pr => mark .endedDone { pr with reports := pr.reports ++ [rep] } with
              nextOrder := s.nextOrder + 1 }.onDrive d fun dr => { dr with retryMark := false }))
        ∧ rep.tag = f.tagNumber ∧ rep.cls = .done ∧ rep.detail = .none)
    ∧ (k = .formatTrack → cylOf home ≠ (s.drive d).curCyl →
      exec c s = .next (State.flush
        (u { r with
              state := .seeking, reachedArm := true, format := some { checking := false, pos := 0, attempt := 1 } }
          (cylOf home))))
    ∧ (k = .writeLabel → 568 ≠ (s.drive d).curCyl →
      exec c s = .next (State.flush
        (u { r with
              state := .seeking, reachedArm := true
              label := some { image := { serial := (s.drive d).serial.getD 0
                                         generation := ((s.drive d).map.generation + 1) % 65536, entries := es },
                              step := 0, attempt := 1, back := [] } } 568)))

/-! ### Immediate requests -/

/-- RESERVE accepted on a READY drive makes the sending port its owner (R155); RELEASE of its owner ends the
reservation, DRIVE_FREE going to each wanted port and the wanted set emptied, and of any other port ends DONE NOT_HELD
(R157); SEIZE takes the drive whoever holds it, the former owner told RESERVATION_LOST, the seizer leaving the wanted
set and the others in it told DRIVE_FREE (R158). -/
def Obligations.ReservationsMove : Prop :=
  ∀ (p : Port) (f : RequestFrame) (d : Drive) (o : Operands) (s : State),
    let w := (s.drive d).unit.wanted
    let own := fun (q : Option Port) (w : Vector Bool 4) (dr : DriveRec) =>
      { dr with unit := { dr.unit with owner := q, wanted := w } }
    (s.reaches .reserve p f d o → (s.drive d).state = .ready → (s.drive d).clear p →
      exec (.reserve p f) s = .next ((s.onDrive d (own (some p) w)).answer p (doneReport .reserve f .none)))
    ∧ (s.reaches .release p f d o → (s.drive d).unit.owner = some p →
      ∃ t : State, exec (.release p f) s = .next (t.answer p (doneReport .release f .none))
        ∧ t = { s.onDrive d (own none (Vector.replicate 4 false)) with ports := t.ports }
        ∧ ∀ q : Port, t.port q = if ofPort w q then (s.port q).posted .driveFree (.drive d) .none else s.port q)
    ∧ (s.reaches .release p f d o → (s.drive d).unit.owner ≠ some p →
      exec (.release p f) s = .next (s.answer p (plainReport .release f .done .notHeld .none .none)))
    ∧ (s.reaches .seize p f d o → (s.drive d).state = .ready → ofPort (s.drive d).unit.attention p = none →
      ofPort (s.drive d).deferred p = none →
      ((s.drive d).unit.owner = none →
        exec (.seize p f) s = .next ((s.onDrive d (own (some p) w)).answer p (doneReport .seize f .none)))
      ∧ ((s.drive d).unit.owner = some p → exec (.seize p f) s = .next (s.answer p (doneReport .seize f .none)))
      ∧ (∀ q, (s.drive d).unit.owner = some q → q ≠ p →
        ∃ t : State, exec (.seize p f) s = .next (t.answer p (doneReport .seize f .none))
          ∧ t = { s.onDrive d (own (some p) (Vector.replicate 4 false)) with ports := t.ports }
          ∧ ∀ x : Port,
              let told := if x = q then (s.port x).posted .reservationLost (.drive d) .none else s.port x
              t.port x = if ofPort w x = true ∧ x ≠ p then told.posted .driveFree (.drive d) .none else told))

/-- The requests that read records change nothing but the report queue: READ STATUS (R42), READ SPARE MAP (R137), READ
SETTINGS (R69), READ IDENTITY (R183), each in every drive state, each body with its fields as they stand, the free alternates
those that no entry of the map names (R115), the queue length that of the drive's queue (R73); READ FAULT RECORD turns the
record's collected mark on (R39), or ends REFUSED NOT_FAULTED. That the body shows the mark on is log entry 26, and that the status body holds
R42's fields alone log entry 36, both the model's choice. -/
def Obligations.RecordsRead : Prop :=
  ∀ (p : Port) (f : RequestFrame) (d : Drive) (o : Operands) (s : State),
    let dr := s.drive d
    let es := dr.map.entries
    let names := fun (k : Nat) (e : MapEntry) => match e with
      | .assign _ j _ => decide (j = k)
      | .retire j => decide (j = k)
    let free := ((List.range 128).filter fun k => !(es.any (names k))).length
    let updating := match dr.labelUpdate with
      | some u => decide (u.state = .queued)
      | none => false
    let waiting := (s.table.filter fun q => decide (q.drive = d) && decide (q.state = .queued)).length
    let value := fun (t : Setting) (v : Nat) => ({ setting := t, value := v, unit := none } : SettingItem)
    let switch := fun (t : Setting) (b : Bool) => value t (if b then 1 else 0)
    let g := s.settings
    let pr := s.port p
    (s.reaches .readStatus p f d o →
      exec (.readStatus p f) s = .next (s.answer p (doneReport .readStatus f (.status
        { state := dr.state, motor := dr.motor, arm := dr.arm, curCyl := dr.curCyl, tgtCyl := dr.tgtCyl
          packSeated := dr.packSeated, doorClosed := dr.doorClosed, writeProtect := dr.writeProtect
          writeFault := dr.writeFault, startStrap := dr.startStrap, inStartList := decide (d ∈ s.startList)
          serial := dr.serial, labelState := dr.map.labelState, generation := dr.map.generation
          mapEntries := es.length, freeAlternates := free
          fault := if dr.state = .faulted then dr.fault.map fun x => (x.kind, x.collected) else none
          owner := dr.unit.owner, attention := ofPort dr.unit.attention p
          queueLength := if updating then waiting + 1 else waiting
          recoveredCount := (ofPort dr.recCounts p).count, deferred := ofPort dr.deferred p }))))
    ∧ (s.reaches .readSpareMap p f d o →
      exec (.readSpareMap p f) s = .next (s.answer p (doneReport .readSpareMap f (.spareMap
        { labelState := dr.map.labelState, generation := dr.map.generation, armed := dr.map.armed
          updateQueued := updating, entryCount := es.length, freeAlternates := free, entries := es }))))
    ∧ (s.admits .readIdentity p f o →
      exec (.readIdentity p f) s = .next (s.answer p (doneReport .readIdentity f (.identity
        { model := 4170, port := p, maintStrap := pr.maintStrap, baseStrap := pr.baseStrap
          present := ([0, 1, 2, 3, 4, 5, 6, 7] : List Drive).filter fun x => decide ((s.drive x).state ≠ .absent)
          paths := 2, segments := 8, windows := 4, frameErrors := pr.frameErrors, unknownTags := pr.unknownTags
          overruns := pr.overruns }))))
    ∧ (s.admits .readSettings p f o →
      exec (.readSettings p f) s = .next (s.answer p (doneReport .readSettings f (.settings
        [value .retryLimit g.retryLimit, switch .autoSpare g.autoSpare, value .suspectThreshold g.suspectThreshold,
          value .preferenceMisses g.preferenceMisses, value .overduePasses g.overduePasses,
          value .unitBase pr.settings.unitBase, switch .earlyEndPermitted pr.settings.earlyEndPermitted,
          switch .noticeLineEnable pr.settings.noticeLineEnable,
          { setting := .dataWait, value := pr.settings.waitFactor, unit := some pr.settings.waitUnit }]))))
    ∧ (s.reaches .readFaultRecord p f d o →
      (∀ x, (s.drive d).state = .faulted → (s.drive d).fault = some x →
        exec (.readFaultRecord p f) s = .next ((s.onDrive d fun dr =>
          { dr with fault := some { x with collected := true } }).answer p
            (doneReport .readFaultRecord f (.faultRecord { x with collected := true }))))
      ∧ ((s.drive d).state ≠ .faulted →
        exec (.readFaultRecord p f) s = .next (s.answer p
          (plainReport .readFaultRecord f .refused .notFaulted .none .none))))

/-- COLLECT NOTICES takes the oldest records of the selected kinds, every kind when the selection is empty, up to its
limit, 0 being none; the rest keep their order, their number is reported, and the line drops with the last record
(R165, R166). -/
def Obligations.CollectTakesOldest : Prop :=
  ∀ (p : Port) (f : RequestFrame) (limit : Nat) (sel : List NoticeKind) (s : State),
    s.admits .collectNotices p f (.collect limit sel) →
    let ns := (s.port p).notices
    let want := fun (n : Notice) => sel.isEmpty || sel.contains n.kind
    ∃ taken left : List Notice,
      exec (.collectNotices p f) s = .next ((s.onPort p fun pr =>
        { pr with notices := left, noticeLine := !left.isEmpty && pr.settings.noticeLineEnable }).answer p
          (doneReport .collectNotices f (.notices taken left.length)))
      ∧ taken = (ns.filter want).take (if limit = 0 then ns.length else limit)
      ∧ left.filter want = (ns.filter want).drop (if limit = 0 then ns.length else limit)
      ∧ left.filter (fun n => !want n) = ns.filter (fun n => !want n) ∧ left.Sublist ns

/-- TEST NOTICE posts a TEST notice without subject to the port it names (R167), its own or another: a new record at
the tail with occurrences 1, or one more occurrence, up to 255, of the record that stands (R163), the line raised with
the setting on (R165), reported DONE, detail NONE, to the sender; a port value other than A to D is refused
FIELD_INVALID. -/
def Obligations.TestNoticePosts : Prop :=
  ∀ (p : Port) (f : RequestFrame) (s : State),
    (∀ q : Port, s.admits .testNotice p f (.port q) →
      ∃ l, exec (.testNotice p f) s = .next ((s.onPort q fun pr =>
            { pr with notices := l, noticeLine := pr.settings.noticeLineEnable }).answer p
              (doneReport .testNotice f .none))
        ∧ ((∀ n ∈ (s.port q).notices, n.kind = .test → n.subject ≠ .none) →
            l = (s.port q).notices ++ [{ kind := .test, subject := .none, occurrences := 1, details := .none }])
        ∧ (∀ a n b, (s.port q).notices = a ++ n :: b → n.kind = .test → n.subject = .none →
            (∀ m ∈ a ++ b, m.kind = .test → m.subject ≠ .none) →
            l = a ++ { n with occurrences := min 255 (n.occurrences + 1) } :: b))
    ∧ (s.takes p f → f.params.length = 1 → (f.one 0 < 1 ∨ 4 < f.one 0) →
      exec (.testNotice p f) s = .next (s.answer p
        (plainReport .testNotice f .refused .fieldInvalid .none .none)))

/-- CANCEL (R58 to R61): an unknown tag is refused TAG_UNKNOWN and an early-ended write NOT_CANCELLABLE; a request in
movement gets the cancel-pending mark and leaves the arm, which runs on; a request TRANSFERRING or SPARING gets the
mark; a request in movement, TRANSFERRING or SPARING that has the mark already stays as it was; a request WAITING_CHAIN,
QUEUED, POSITIONED, SPARING_WAIT or CONTROL_WAIT ends ABANDONED CANCELLED at once, and what that lets happen happens before the
CANCEL ends. The CANCEL's own report is DONE, and is queued behind its target's (R58); that it stands behind all that the event
reports is log entry 30, the model's choice. -/
def Obligations.CancelActs : Prop :=
  ∀ (p : Port) (f : RequestFrame) (n : Nat) (s : State), s.admits .cancel p f (.target n) →
    (s.tagged? p n = none →
      exec (.cancel p f) s = .next (s.answer p (plainReport .cancel f .refused .tagUnknown .none .none)))
    ∧ ∀ r, s.tagged? p n = some r →
      (r.earlyEnded = true →
        exec (.cancel p f) s = .next (s.answer p (plainReport .cancel f .refused .notCancellable .none .none)))
      ∧ (r.earlyEnded = false → r.cancelPending = false → r.kind ≠ .labelUpdate →
        let u := s.withRequest { r with cancelPending := true }
        let own := doneReport .cancel f .none
        ((r.state = .transferring ∨ r.state = .sparing) →
          exec (.cancel p f) s = .next (State.flush (u.queueReport p own)))
        ∧ ((r.state = .seeking ∨ r.state = .recalibrating) → (s.drive r.drive).owner = some r.rid →
          (s.drive r.drive).arm ≠ .onCylinder →
          exec (.cancel p f) s = .next (State.flush ((u.onDrive r.drive fun dr =>
            { dr with owner := none, retryMark := false }).queueReport p own)))
        ∧ ((r.state = .queued ∨ r.state = .waitingChain ∨ r.state = .controlWait) → s.plain r → s.unnamed r.rid →
          r.reachedArm = false → r.earlyEffective = false → s.quiet →
          exec (.cancel p f) s = .next (State.flush
            { s.onPort p fun pr =>
                { pr with
                  reports := pr.reports ++ [endingReport s r Ending.cancelled .none, own]
                  marker := pr.marker.map fun m =>
                    if m.member = some r.rid then { m with standing := .endedOther } else m } with
              table := s.table.filter (·.rid != r.rid) })))
      ∧ (r.earlyEnded = false → r.cancelPending = true →
        (r.state = .seeking ∨ r.state = .recalibrating ∨ r.state = .transferring ∨ r.state = .sparing) →
        exec (.cancel p f) s = .next (State.flush (s.queueReport p (doneReport .cancel f .none))))
      ∧ (r.earlyEnded = false →
        (r.state = .waitingChain ∨ r.state = .queued ∨ r.state = .positioned ∨ r.state = .sparingWait
          ∨ r.state = .controlWait) →
        let t := s.conclude r.rid { cls := .abandoned, detail := .cancelled, failing := none }
        exec (.cancel p f) s = .next (State.flush ((State.settle s t).queueReport p (doneReport .cancel f .none)))
        ∧ (t.quiet → State.settle s t = t)
        ∧ (s.plain r →
          t.table = s.table.filter (·.rid != r.rid) ∧ r.rid ∉ t.buffer.waiters
          ∧ (∀ i : Fin 8, t.segments[i] = if s.segments[i] = some r.rid then none else s.segments[i])
          ∧ (∀ q : Port, t.port q =
              if q = r.port then
                { s.port q with
                  reports := (s.port q).reports ++ [endingReport s r Ending.cancelled .none]
                  marker := (s.port q).marker.map fun m =>
                    if m.member = some r.rid then { m with standing := .endedOther } else m }
              else s.port q)
          ∧ (t.drive r.drive).owner = (s.drive r.drive).owner.filter (· != r.rid)))

/-- SET WINDOW (R171): a FREE window becomes SET with the sending port as owner and the drive and fields as taken, a
window of the sender has every field replaced, each reported with the window as it then stands; another port's window
is refused WINDOW_OWNED, its number the qualifier, and stays as it was. -/
def Obligations.WindowSetActs : Prop :=
  ∀ (p : Port) (f : RequestFrame) (d : Drive) (w : Fin 4) (base len : Nat) (a : Access) (b : Action) (c : Scope)
    (s : State), s.reaches .setWindow p f d (.window w base len a b c) →
    let x : Window := { owner := p, drive := d, base := base, length := len, access := a, action := b, scope := c }
    ((∀ y, s.windows[w] = some y → y.owner = p) →
      exec (.setWindow p f) s = .next ({ s with windows := s.windows.set w.val (some x) w.isLt }.answer p
        (doneReport .setWindow f (.windows [(w.val, some x)]))))
    ∧ (∀ y, s.windows[w] = some y → y.owner ≠ p →
      exec (.setWindow p f) s = .next (s.answer p
        (plainReport .setWindow f .refused .windowOwned (.window w.val) .none)))

/-- CLEAR WINDOW and READ WINDOWS (R172): a window number above 3 is refused FIELD_INVALID; a FREE window or one of
the sender becomes FREE, reported DONE; another port's window is refused WINDOW_OWNED, its number the qualifier, and
stays; READ WINDOWS reports the four windows in number order and changes nothing else. -/
def Obligations.WindowsClearedAndRead : Prop :=
  ∀ (p : Port) (f : RequestFrame) (s : State),
    (s.takes p f → f.params.length = 1 → 3 < f.one 0 →
      exec (.clearWindow p f) s = .next (s.answer p
        (plainReport .clearWindow f .refused .fieldInvalid .none .none)))
    ∧ (∀ w : Fin 4, s.admits .clearWindow p f (.windowNumber w) →
      ((∀ y, s.windows[w] = some y → y.owner = p) →
        exec (.clearWindow p f) s = .next ({ s with windows := s.windows.set w.val none w.isLt }.answer p
          (doneReport .clearWindow f .none)))
      ∧ (∀ y, s.windows[w] = some y → y.owner ≠ p →
        exec (.clearWindow p f) s = .next (s.answer p
          (plainReport .clearWindow f .refused .windowOwned (.window w.val) .none))))
    ∧ ∀ o, s.admits .readWindows p f o →
      exec (.readWindows p f) s = .next (s.answer p (doneReport .readWindows f
        (.windows [(0, s.windows[0]), (1, s.windows[1]), (2, s.windows[2]), (3, s.windows[3])])))

/-- The span a SET WINDOW records (R170): for an accepted length 1 to 8 the largest power of two in it, its base
rounded down to a multiple of that length; the named base track lies in the span, and the span in the home tracks. -/
def Obligations.WindowSpanTaken : Prop :=
  ∀ (f : RequestFrame) (w : Fin 4) (base len : Nat) (a : Access) (b : Action) (c : Scope),
    checkFields .setWindow f = .ok (.window w base len a b c) →
    (len = 1 ∨ len = 2 ∨ len = 4 ∨ len = 8) ∧ 1 ≤ f.one 3 ∧ f.one 3 ≤ 8 ∧ len ≤ f.one 3 ∧ f.one 3 < 2 * len
      ∧ base % len = 0 ∧ base ≤ f.two 1 ∧ f.two 1 < base + len ∧ base + len ≤ 8960

/-- SET SETTINGS (R68, R69): every setting the list names takes its value, every other keeps its own; RETRY_LIMIT and
SUSPECT_THRESHOLD are clamped to 1 to 15, PREFERENCE_MISSES to 1 to 7, OVERDUE_PASSES to 4 to 15, the factor of DATA_WAIT to
15, and UNIT_BASE is rounded down to a multiple of 8; the report's body shows the values taken. Nothing else changes but the
notice line, which follows NOTICE_LINE_ENABLE. -/
def Obligations.SettingsTaken : Prop :=
  ∀ (p : Port) (f : RequestFrame) (xs : List SettingItem) (s : State), s.admits .setSettings p f (.settings xs) →
    let taken := xs.map fun x => { x with value := match x.setting with
      | .retryLimit | .suspectThreshold => max 1 (min 15 x.value)
      | .preferenceMisses => max 1 (min 7 x.value)
      | .overduePasses => max 4 (min 15 x.value)
      | .unitBase => x.value - x.value % 8
      | .dataWait => min 15 x.value
      | .autoSpare | .earlyEndPermitted | .noticeLineEnable => x.value }
    let named := fun (y : Setting) => taken.find? fun x => decide (x.setting = y)
    let value := fun (y : Setting) (old : Nat) => ((named y).map (·.value)).getD old
    let switch := fun (y : Setting) (old : Bool) => ((named y).map fun x => decide (x.value = 1)).getD old
    let rep := doneReport .setSettings f (if taken.isEmpty then .none else .settings taken)
    ∃ t : State, (xs.any (·.setting = .overduePasses) = false → exec (.setSettings p f) s = .next (t.answer p rep))
      ∧ (xs.any (·.setting = .overduePasses) = true → s.quiet →
          exec (.setSettings p f) s = .next (State.flush (t.queueReport p rep)))
      ∧ t = { s with
          ports := t.ports
          settings :=
            { retryLimit := value .retryLimit s.settings.retryLimit
              autoSpare := switch .autoSpare s.settings.autoSpare
              suspectThreshold := value .suspectThreshold s.settings.suspectThreshold
              preferenceMisses := value .preferenceMisses s.settings.preferenceMisses
              overduePasses := value .overduePasses s.settings.overduePasses } }
      ∧ (let g := (s.port p).settings
        ∃ l, t.port p = { s.port p with
            settings :=
              { unitBase := value .unitBase g.unitBase
                earlyEndPermitted := switch .earlyEndPermitted g.earlyEndPermitted
                noticeLineEnable := switch .noticeLineEnable g.noticeLineEnable
                waitFactor := value .dataWait g.waitFactor
                waitUnit := ((named .dataWait).bind (·.unit)).getD g.waitUnit }
            noticeLine := l }
          ∧ ((s.port p).lineHolds →
            l = (!(s.port p).notices.isEmpty && switch .noticeLineEnable g.noticeLineEnable)))
      ∧ ∀ q : Port, q ≠ p → t.port q = s.port q

/-! ### Endings -/

/-- How a request ends (R63): its report joins its port's queue, its marker takes its standing (R55, R56), its entry
leaves the table, it leaves the arm, a stationary arm becoming IDLE (R26), its segments are FREE (R100), it leaves the
preference list and a path it holds goes to the head of that list or is FREE (R96), the sparing buffer and the waiter list
let it go (R118); nothing else changes. A successor waiting behind it is queued with chain precedence when it ends DONE
(R55), and ends NOT_RUN CHAIN_BROKEN behind its report otherwise (R56). The report-after windows it meets post WINDOW_MATCH to
their owners, in number order (R175). An early-ended write is not reported again (R64): its failure is folded into the
deferred record of its port, made with DEFERRED_ERROR where there is none (R149, R150). Its order within the event is log
entry 17. Requests that one event ends DONE together (R25, R37, R40, R153) all end, in the order given, and then their chains
are released (R55), which is log entry 43, the model's choice. -/
def Obligations.EndingReturnsAll : Prop :=
  (∀ (s : State) (r : Request) (e : Ending), s.plain r →
    let t := s.conclude r.rid e
    let pref := s.preference.filter (· != r.rid)
    let rest := if s.path0.holds r.rid then pref.tail else pref
    (t = { s with
        drives := t.drives, ports := t.ports, table := s.table.filter (·.rid != r.rid)
        path0 := if s.path0.holds r.rid then PathState.handed pref else s.path0
        path1 := if s.path1.holds r.rid then PathState.handed rest else s.path1
        preference := if s.path1.holds r.rid then rest.tail else rest
        segments := t.segments
        buffer := { s.buffer with
          holder := if s.buffer.holder = some r.rid then none else s.buffer.holder
          waiters := s.buffer.waiters.filter (· != r.rid) } })
    ∧ (∀ q : Port, t.port q =
        if q = r.port then
          { s.port q with
            reports := (s.port q).reports ++ [endingReport s r e .none]
            marker := (s.port q).marker.map fun m =>
              if m.member = some r.rid then { m with standing := if e.cls = .done then .endedDone else .endedOther }
              else m }
        else s.port q)
    ∧ (∀ d : Drive, t.drive d =
        if d = r.drive ∧ (s.drive d).owner = some r.rid then
          { s.drive d with
            owner := none, retryMark := false
            arm := if (s.drive d).arm = .onCylinder then .idle else (s.drive d).arm }
        else s.drive d)
    ∧ (∀ i : Fin 8, t.segments[i] = if s.segments[i] = some r.rid then none else s.segments[i]))
  ∧ (∀ (s : State) (r y : Request) (e : Ending), s.single r → s.entry y → y.rid ≠ r.rid → y.port = r.port →
    y.state = .waitingChain → y.pred = some r.rid → (∀ q ∈ s.table, q.pred = some r.rid → q = y) →
    (r.reachedArm = true → s.matching .reportAfter r.port r.drive r.kind r.extent = []) →
    let t := s.conclude r.rid e
    (e.cls = .done → y.kind.armUsing = true → (y.kind.isData = true → y.count ≠ 0) →
      (s.drive y.drive).state = .ready →
      t.table = (s.table.filter (·.rid != r.rid)).map (fun q =>
          if q.rid = y.rid then { y with state := .queued, chainPrecedence := true } else q)
      ∧ ∀ q : Port, (t.port q).reports =
          (s.port q).reports ++ if q = r.port then [endingReport s r e .none] else [])
    ∧ (e.cls ≠ .done → (∀ q ∈ s.table, q.pred ≠ some y.rid) → y.earlyEnded = false →
      t.table = s.table.filter (fun q => q.rid != r.rid && q.rid != y.rid)
      ∧ ∀ q : Port, (t.port q).reports =
          (s.port q).reports ++
            if q = r.port then
              [endingReport s r e .none, endingReport s y (Ending.make .notRun .chainBroken) .none] else []))
  ∧ (∀ (s : State) (r : Request) (e : Ending), s.single r → (∀ q ∈ s.table, q.pred ≠ some r.rid) → r.reachedArm = true →
    let ms := s.matching .reportAfter r.port r.drive r.kind r.extent
    ∀ q : Port, ((s.conclude r.rid e).port q).notices =
        (ms.filter (·.2.1.owner = q)).foldl
          (fun ns m => postInto ns .windowMatch (.window m.1) (.request r.port r.tag m.2.2)) (s.port q).notices)
  ∧ (∀ (s : State) (r : Request) (e : Ending), s.entry r → r.earlyEnded = true → r.failure = none →
    let t := s.conclude r.rid e
    t.table = s.table.filter (·.rid != r.rid)
    ∧ (∀ q : Port, (t.port q).reports = (s.port q).reports ∧ (t.port q).marker = (s.port q).marker)
    ∧ (e.cls = .done → (t.drive r.drive).deferred = (s.drive r.drive).deferred ∧ ∀ q : Port, t.port q = s.port q)
    ∧ (e.cls ≠ .done →
      let old := ofPort (s.drive r.drive).deferred r.port
      (∀ q : Port, ofPort (t.drive r.drive).deferred q =
        if q = r.port then some (r.foldInto e old) else ofPort (s.drive r.drive).deferred q)
      ∧ ∀ q : Port, t.port q =
          if q = r.port ∧ old = none then (s.port q).posted .deferredError (.drive r.drive) .none else s.port q))
  ∧ (∀ (s : State) (r : Request), s.single r →
    s.conclude r.rid (Ending.make .done .none) = (s.concludeDone r.rid).releaseBehind r.rid)
  ∧ ∀ (s : State) (rs : List Request), (∀ r ∈ rs, s.single r ∧ r.reachedArm = false) → (rs.map (·.rid)).Nodup →
    let t := rs.foldl (fun v r => v.concludeDone r.rid) s
    s.endTogether (rs.map (·.rid)) = rs.foldl (fun v r => v.releaseBehind r.rid) t
    ∧ t.table = s.table.filter (fun q => decide (q.rid ∉ rs.map (·.rid)))
    ∧ ∀ p : Port, (t.port p).reports = (s.port p).reports ++
        (rs.filter fun r => decide (r.port = p)).map fun r => endingReport s r (Ending.make .done .none) .none

/-! ### The ports -/

/-- A free sending direction of an ONLINE port (R181) begins data-wanted frames first, in the order given, then the
oldest report, then, the hold line not raised, the data-in frame of the oldest read with a block ready; a raised hold
line (R107) holds back data-in frames alone, and a direction in use begins nothing. Beginning frames changes nothing
else. The choice at the end of an event is log entry 15. -/
def Obligations.SendingOrder : Prop :=
  ∀ (s : State) (p : Port),
    ((s.port p).online = true → (s.port p).sending = none →
      (∀ w rest, (s.port p).wanted = w :: rest →
        s.pump p = s.onPort p fun pr => { pr with wanted := rest, sending := some (.wanted w) })
      ∧ (∀ r rest, (s.port p).wanted = [] → (s.port p).reports = r :: rest →
        s.pump p = s.onPort p fun pr => { pr with sending := some (.report r) })
      ∧ ((s.port p).wanted = [] → (s.port p).reports = [] → (s.port p).hold = true → s.pump p = s)
      ∧ (∀ a r b x, (s.port p).wanted = [] → (s.port p).reports = [] → (s.port p).hold = false →
        s.table = a ++ r :: b → r.port = p → (∀ q ∈ a, q.port = p → q.dataIn? = none) → r.dataIn? = some x →
        s.pump p = s.onPort p fun pr => { pr with sending := some x })
      ∧ ((s.port p).wanted = [] → (s.port p).reports = [] → (∀ q ∈ s.table, q.port = p → q.dataIn? = none) →
        s.pump p = s))
    ∧ ((s.port p).online = false ∨ (s.port p).sending ≠ none → s.pump p = s)
    ∧ s.sameButFrames s.flush ∧ s.sameButFrames (s.pump p)

/-- The link events that complete at a port: a report sent in full leaves the queue (R180); a data-wanted frame sent
in full leaves its round asked for, its half's data-wait timer started at the port's setting (R105, R182); the hold
line (R107) and the appearing signal (R177) change their own field; then the next frame begins. -/
def Obligations.LinkEventsComplete : Prop :=
  ∀ (p : Port) (s : State), s.powered = true →
    (∀ r, (s.port p).sending = some (.report r) →
      exec (.reportSent p) s = .next ((s.onPort p fun pr =>
        { pr with sending := none, reports := pr.reports.tail }).pump p))
    ∧ (∀ w r, (s.port p).sending = some (.wanted w) → s.request? w.rid = some r → r.kind ≠ .labelUpdate →
        r.held = none → r.detached = false →
        let one := decide (w.first / 12 % 2 = 1)
        (r.half one).state = .wanted → (r.half one).round = w.first / 12 →
        exec (.dataWantedSent p) s = .next (((s.withRequest (r.setHalf one { r.half one with
          asked := true
          timer := if (s.port r.port).settings.waitFactor = 0 then none
            else some ((s.port r.port).settings.waitFactor * (s.port r.port).settings.waitUnit.micros) })).onPort p
              fun pr => { pr with sending := none }).pump p))
    ∧ (∀ raised, exec (.holdLineChange p raised) s = .next ((s.onPort p fun pr => { pr with hold := raised }).pump p))
    ∧ ((s.port p).online = false →
        exec (.linkSignalAppears p) s = .next ((s.onPort p fun pr => { pr with online := true }).pump p))

/-- Frames that carry no data are counted (R104, R178): a discarded frame that names no write as one frame error, a
data-out frame whose tag matches no outstanding request as one unknown tag, one for a request that takes no data as
one frame error, each count saturating at 65,535. The readings of tag and check, and that a frame of fewer than four octets
names no tag, are log entry 20. -/
def Obligations.FramesCounted : Prop :=
  ∀ (p : Port) (s : State), s.powered = true → (s.port p).online = true →
    let err := s.onPort p fun pr => { pr with frameErrors := min 65535 (pr.frameErrors + 1) }
    (∀ os, isBadFrame os = true →
      (frameCheckGood os = true ∨ (octetAt os 0).toNat ≠ 3 ∨ os.length < 4
        ∨ s.tagged? p (octetAt os 1).toNat = none) →
      exec (.badFrame p os) s = .next err)
    ∧ (∀ tag index b, s.tagged? p tag.toNat = none →
      exec (.dataOut p tag index b) s = .next (s.onPort p fun pr =>
        { pr with unknownTags := min 65535 (pr.unknownTags + 1) }))
    ∧ (∀ tag index b r, s.tagged? p tag.toNat = some r → (r.takesData = false ∨ r.earlyEnded = true) →
      exec (.dataOut p tag index b) s = .next err)

/-- A good data-out frame with the lowest block not yet arrived, in a round asked for, is placed in its half, which
becomes FULL at the round's last block with its timer stopped (R104, R105); the last block of an effective early end
makes the report DONE EARLY_END, the request keeping its entry, tag, arm and segments and going on (R64). No early report
with a cancel pending: log entry 19. -/
def Obligations.DataOutPlaced : Prop :=
  ∀ (p : Port) (tag : Octet) (index : Word16) (b : Block) (r : Request) (s : State), s.powered = true →
    (s.port p).online = true → s.tagged? p tag.toNat = some r → r.takesData = true → r.earlyEnded = false →
    r.held = none → index.toNat = r.arrived → r.arrived < r.count →
    let one := decide (r.arrived / 12 % 2 = 1)
    let h := r.half one
    h.state = .wanted → h.asked = true → h.round = r.arrived / 12 →
    let full := decide (h.blocks.length + 1 = min 12 (r.count - 12 * h.round))
    let q := { r.setHalf one { h with
        blocks := h.blocks ++ [b], state := if full then .full else .wanted
        timer := if full then none else h.timer } with arrived := r.arrived + 1 }
    ((r.arrived + 1 ≠ r.count ∨ r.earlyEffective = false ∨ r.cancelPending = true) →
      exec (.dataOut p tag index b) s = .next (s.withRequest q))
    ∧ (r.arrived + 1 = r.count → r.earlyEffective = true → r.cancelPending = false → s.plain r → s.quiet →
        r.reachedArm = true → r.state ≠ .queued →
      exec (.dataOut p tag index b) s = .next (State.flush
        ((s.withRequest { q with earlyEnded := true, windowMatch := none }).onPort p fun pr =>
          { pr with
            reports := pr.reports ++ [endingReport s r (Ending.make .done .earlyEnd) .none]
            marker := pr.marker.map fun m =>
              if m.member = some r.rid then { m with standing := .endedDone } else m })))

/-- A failure of the data path while a block is TRANSFERRING, or an operation in SPARING, is held until its end, the request's
timers stopped, and ends a request in any other state, as POSITIONED, SEEKING, RECALIBRATING or SPARING_WAIT, in its event:
DATA_FRAME_ERROR at a data-out frame out of order or a failed data-out frame, which is counted (R104, R178),
naming the first block not received, and DATA_LATE at the expiry of a half's data-wait timer (R105), taken whenever that
timer runs (log entry 7, the model's choice). Where such an ending is held is log entry 18, the free value counted log entry 5, and the tag of a
failed frame log entry 20. -/
def Obligations.PortFailureHeld : Prop :=
  (∀ (p : Port) (r : Request) (s : State), s.powered = true → (s.port p).online = true → s.quiet → s.plain r →
    r.takesData = true → r.held = none → r.cancelPending = false → (r.state = .transferring ∨ r.state = .sparing) →
    r.arrived < r.count →
    let halted := fun (d : Detail) =>
      { r with
        half0 := { r.half0 with timer := none }, half1 := { r.half1 with timer := none }, readTimer := none
        held := some { cls := .ended, detail := d, failing := some (addrOf (blockOf r.addr + r.arrived)) } }
    (∀ (tag : Octet) (index : Word16) (b : Block), s.tagged? p tag.toNat = some r → index.toNat ≠ r.arrived →
      exec (.dataOut p tag index b) s = .next (State.flush
        { s.withRequest (halted .dataFrameError) with freeCount := s.freeCount + 1 }))
    ∧ (∀ os, frameCheckGood os = false → (octetAt os 0).toNat = 3 → 4 ≤ os.length →
        s.tagged? p (octetAt os 1).toNat = some r →
      exec (.badFrame p os) s = .next (State.flush
        { (s.withRequest (halted .dataFrameError)).onPort p fun pr =>
            { pr with frameErrors := min 65535 (pr.frameErrors + 1) } with freeCount := s.freeCount + 1 }))
    ∧ (∀ (tag : Fin 16) (half : Fin 2), s.tagged? p tag.val = some r → (r.half (decide (half = 1))).timer ≠ none →
      exec (.dataWaitExpiry p tag half) s = .next (State.flush (s.withRequest (halted .dataLate)))))
  ∧ ∀ (p : Port) (r : Request) (s : State), s.powered = true → (s.port p).online = true → s.single r →
    r.takesData = true → r.held = none → r.cancelPending = false → r.state ≠ .transferring → r.state ≠ .sparing →
    r.arrived < r.count →
    let ended := fun (d : Detail) => Ending.at .ended d (addrOf (blockOf r.addr + r.arrived))
    (∀ (tag : Octet) (index : Word16) (b : Block), s.tagged? p tag.toNat = some r → index.toNat ≠ r.arrived →
      exec (.dataOut p tag index b) s = .next (State.close s
        (State.conclude { s with freeCount := s.freeCount + 1 } r.rid (ended .dataFrameError))))
    ∧ (∀ os, frameCheckGood os = false → (octetAt os 0).toNat = 3 → 4 ≤ os.length →
        s.tagged? p (octetAt os 1).toNat = some r →
      exec (.badFrame p os) s = .next (State.close s (State.conclude
        { s.onPort p fun pr => { pr with frameErrors := min 65535 (pr.frameErrors + 1) } with
          freeCount := s.freeCount + 1 } r.rid (ended .dataFrameError))))
    ∧ (∀ (tag : Fin 16) (half : Fin 2), s.tagged? p tag.val = some r → (r.half (decide (half = 1))).timer ≠ none →
      exec (.dataWaitExpiry p tag half) s = .next (State.close s (State.conclude
        (s.withRequest (r.setHalf (decide (half = 1)) { r.half (decide (half = 1)) with timer := none })) r.rid
        (ended .dataLate))))

/-- A data-in frame sent in full is a block delivered (R102, R109): the blocks done rise by one, a recovered block
counts (R146), a DRAINING half whose round, that of the block delivered, has nothing left becomes EMPTY; with the last
block the read ends DONE. The read timer's expiry ends a read PORT_OVERRUN (R106), taken whenever that timer runs (log
entry 7, the model's choice). The read timer's ending at once is log entry 19. -/
def Obligations.ReadsDelivered : Prop :=
  ∀ (p : Port) (r : Request) (s : State), s.powered = true → r.kind = .readBlocks → r.cancelPending = false →
    (∀ (rid tag index : Nat) (b : Block), (s.port p).sending = some (.dataIn rid tag index b) → rid = r.rid →
      r.blocksDone = index → s.plain r →
      let one := decide (index / 12 % 2 = 1)
      let h := r.half one
      let q := { r with
        blocksDone := index + 1, marks := r.marks.filter (· != index)
        recovered := if index ∈ r.marks then r.recovered + 1 else r.recovered }
      let q := if h.state = .draining ∧ index + 1 = min (12 * (index / 12) + 11) (r.count - 1) + 1 then
          q.setHalf one { h with state := .empty, blocks := [] } else q
      let u := (s.onPort p fun pr => { pr with sending := none }).withRequest
        (r.retime q (s.port r.port).settings.waitTimer)
      (index + 1 ≠ r.count → s.quiet → r.state ≠ .queued →
        exec (.dataInSent p) s = .next (State.flush u))
      ∧ (index + 1 = r.count → s.endsQuietly r →
        exec (.dataInSent p) s = .next (State.flush (u.conclude r.rid q.doneEnding))))
    ∧ (∀ tag : Fin 16, s.tagged? p tag.val = some r → r.readTimer ≠ none → s.endsQuietly r →
      exec (.readTimerExpiry p tag) s = .next (State.flush
        ((s.withRequest { r with readTimer := none }).conclude r.rid (Ending.make .ended .portOverrun))))

/-! ### The spindles -/

/-- The start-gap timer's expiry opens the gate (R21), and a start begins at once when the list holds a drive that may
start: it leaves the list, STARTING and ACCELERATING under the spin timer of 45 s, the gate closed under the gap timer
of 8 s. Expiry taken whenever the timer runs is log entry 7, the model's choice. -/
def Obligations.StartGapExpires : Prop :=
  ∀ s : State, s.powered = true → s.gapTimer ≠ none → s.idle →
    (s.startList = [] → exec .startGapExpiry s = .next (State.flush { s with gapTimer := none, gateOpen := true }))
    ∧ (∀ (d : Drive) (rest : List Drive), s.startList = d :: rest → d ∉ rest → (s.drive d).state = .stopped →
        (s.drive d).packSeated = true → (s.drive d).doorClosed = true →
        (allDrives.filter fun e => decide ((s.drive e).state = .starting)).length < 2 →
        exec .startGapExpiry s = .next (State.flush ({ s with
            gapTimer := some 8000000, gateOpen := false, startList := rest }.onDrive d fun dr =>
          { dr with state := .starting, motor := .accelerating, spinTimer := some 45000000 })))

/-- A STARTING drive at speed is LOADING, its motor AT_SPEED, its spin timer stopped, its counters at sector 0, its
arm recalibrating for the load, and the gate opens (R22, R24, R28); at the spin timeout it is FAULTED with
SPIN_TIMEOUT, its motor COASTING, DRIVE_FAULTED posted to all four ports (R22, R38). The counters at speed and the
expiry whenever the timer runs are log entries 10 and 7. -/
def Obligations.StartEnds : Prop :=
  ∀ (d : Drive) (s : State), s.powered = true → (s.drive d).state = .starting → s.idle → s.startList = [] →
    (exec (.atSpeed d) s = .next (State.flush ({ s with gateOpen := true }.onDrive d fun dr =>
      { dr with
        state := .loading, motor := .atSpeed, spinTimer := none, sector := 0, elapsed := 0, owner := none, tgtCyl := 0
        arm := .recalibrating, recalTimer := some 500000, seekTimer := none
        load := { LoadRec.initial with step := .recalibrate } })))
    ∧ ((s.drive d).spinTimer ≠ none → s.unused d →
      ∃ t, exec (.spinTimeout d) s = .next (State.flush t)
        ∧ t = { s.onDrive d fun dr =>
            { dr with
              state := .faulted, motor := .coasting, arm := .idle, owner := none, spinTimer := none, seekTimer := none
              recalTimer := none, retryMark := false, clearing := false, load := LoadRec.initial
              fault := some { kind := .spinTimeout, curCyl := dr.curCyl, tgtCyl := dr.tgtCyl, owner := none
                              collected := false } } with ports := t.ports }
        ∧ ∀ q : Port, t.port q = (s.port q).posted .driveFaulted (.drive d) .none)

/-- At rest (R37, R41): a COASTING motor is OFF; a STOPPING drive is STOPPED, its waiting STOP DRIVE ends DONE, and a
pack that left during the stop takes its serial and map with it. A drive that is FAULTED stays so. -/
def Obligations.AtRestStops : Prop :=
  ∀ (d : Drive) (s : State), s.powered = true → (s.drive d).motor = .coasting →
    ((s.drive d).state ≠ .stopping → exec (.atRest d) s = .next (s.onDrive d fun dr => { dr with motor := .off }))
    ∧ ((s.drive d).state = .stopping → s.startList = [] → s.idle →
      let u := s.onDrive d fun dr => { dr with motor := .off, state := .stopped }
      ((∀ q ∈ s.table, q.drive ≠ d) →
        exec (.atRest d) s = .next (State.flush (u.onDrive d fun dr =>
          if dr.packLeft then
            { dr with serial := none, packLeft := false, map := MapRec.initial, suspects := [] } else dr)))
      ∧ (∀ r, s.plain r → r.drive = d → r.kind = .stopDrive → r.state = .controlWait → r.earlyEffective = false →
        (∀ q ∈ s.table, q.drive = d → q = r) → (s.table.map (·.rid)).Pairwise (· < ·) →
        (s.drive d).packLeft = false →
        exec (.atRest d) s = .next (State.flush (u.conclude r.rid (Ending.make .done .none)))))

/-- The on-cylinder event (R27) stops the seek timer and makes the current cylinder the target: a load goes on to its
label read (R24), a POSITION ends DONE (R87), any other owner is POSITIONED, and an arm without owner is IDLE (R29).
The cylinder in fact settled on, as operand, is log entry 12, the model's choice. -/
def Obligations.OnCylinderTaken : Prop :=
  ∀ (d : Drive) (settled : Nat) (s : State), s.powered = true → (s.drive d).arm = .seeking → s.quiet →
    let at_ := fun (dr : DriveRec) => { dr with seekTimer := none, curCyl := dr.tgtCyl, armAt := settled }
    ((s.drive d).state = .loading →
      exec (.onCylinder d settled) s = .next (State.flush (s.onDrive d fun dr =>
        { at_ dr with arm := .idle, load := { dr.load with step := .read } })))
    ∧ ((s.drive d).state ≠ .loading →
      (∀ r, (s.drive d).owner = some r.rid → s.entry r → r.state = .seeking →
        (r.kind ≠ .position → r.op = none →
          exec (.onCylinder d settled) s = .next (State.flush
            ((s.withRequest { r with state := .positioned }).onDrive d fun dr =>
              { at_ dr with arm := .onCylinder, retryMark := false })))
        ∧ (r.kind = .position → r.drive = d → s.endsQuietly r →
          exec (.onCylinder d settled) s = .next (State.flush ((s.onDrive d fun dr =>
            { at_ dr with arm := .onCylinder, retryMark := false }).conclude r.rid (Ending.make .done .none)))))
      ∧ ((s.drive d).owner = none → s.cancelled d = [] → s.queue d = [] →
        exec (.onCylinder d settled) s = .next (State.flush (s.onDrive d fun dr => { at_ dr with arm := .idle }))))

/-- The home event (R28) stops the recalibrate timer and makes the current cylinder 0: a load seeks on to cylinder 568
with head 0 (R24), a clearing makes the drive READY with FAULT_CLEARED attention for every port but that of the CLEAR FAULT
it ends DONE, if one waits (R40, R160), RECALIBRATE ends DONE (R88), a recovery recalibrate sends the arm back to the cylinder
of its request's block (R140, R143) or to the target of the seek that failed (R144), the request SEEKING, POSITIONED where that
is cylinder 0, or a POSITION to cylinder 0 ended DONE (R87), and an arm without owner is IDLE (R29). The arm in fact on cylinder
0 is log entry 12, the model's choice. -/
def Obligations.HomeTaken : Prop :=
  ∀ (d : Drive) (s : State), s.powered = true → (s.drive d).arm = .recalibrating → s.quiet →
    let home := fun (dr : DriveRec) => { dr with recalTimer := none, curCyl := 0, armAt := 0 }
    ((s.drive d).state = .loading →
      exec (.homeEvent d) s = .next (State.flush (s.onDrive d fun dr =>
        { home dr with
          tgtCyl := 568, arm := .seeking, seekTimer := some 80000, head := 0, load := { dr.load with step := .seek } })))
    ∧ ((s.drive d).state = .faulted → (s.drive d).clearing = true → (s.drive d).owner = none → s.clearers d = [] →
        s.queue d = [] →
      ∃ t, exec (.homeEvent d) s = .next (State.flush t)
        ∧ t = { s.onDrive d fun dr =>
            { home dr with
              fault := none, state := .ready, arm := .idle, clearing := false
              unit := { dr.unit with attention := Vector.replicate 4 (some .faultCleared) } } with ports := t.ports }
        ∧ ∀ q : Port, t.port q = (s.port q).posted .attention (.drive d) (.reason .faultCleared))
    ∧ (∀ r, (s.drive d).state = .faulted → (s.drive d).clearing = true → s.clearers d = [r] → s.plain r →
      ∃ t : State, exec (.homeEvent d) s = .next (State.close s (t.conclude r.rid (Ending.make .done .none)))
        ∧ t = { s.onDrive d fun dr =>
            { home dr with
              fault := none, state := .ready, arm := .idle, clearing := false
              unit := { dr.unit with attention := (t.drive d).unit.attention } } with ports := t.ports }
        ∧ ∀ q : Port, ofPort (t.drive d).unit.attention q =
              (if q = r.port then ofPort (s.drive d).unit.attention q else some .faultCleared)
            ∧ t.port q = if q = r.port then s.port q
                else (s.port q).posted .attention (.drive d) (.reason .faultCleared))
    ∧ ((s.drive d).state = .ready → (s.drive d).clearing = false →
      (∀ r, (s.drive d).owner = some r.rid → r.drive = d → (s.drive d).afterHome = .finish → s.endsQuietly r →
        exec (.homeEvent d) s = .next (State.flush ((s.onDrive d fun dr =>
          { home dr with arm := .onCylinder, retryMark := false }).conclude r.rid (Ending.make .done .none))))
      ∧ (∀ r c, (s.drive d).owner = some r.rid → s.entry r → r.drive = d → s.pathless r.rid →
        ((s.drive d).afterHome = .toBlock ∧ c = cylOf (s.leg r).track ∨ (s.drive d).afterHome = .toTarget c) →
        (c ≠ 0 ∨ r.kind ≠ .position →
          exec (.homeEvent d) s = .next (State.flush
            ((s.withRequest (if r.op.isSome = true then r else r.sentBy (home (s.drive d)) c)).onDrive d fun dr =>
              (home dr).sentTo c)))
        ∧ (c = 0 → r.kind = .position → s.endsQuietly r →
          exec (.homeEvent d) s = .next (State.flush ((s.onDrive d fun dr => (home dr).sentTo c).conclude r.rid
            (Ending.make .done .none)))))
      ∧ ((s.drive d).owner = none → s.cancelled d = [] → s.queue d = [] →
        exec (.homeEvent d) s = .next (State.flush (s.onDrive d fun dr => { home dr with arm := .idle }))))

/-- A movement of the arm owner that its timer ends is made again once, through a recalibrate (R144): the mark on, the
arm RECALIBRATING under the timer of 500 ms. With the mark on already, the drive is FAULTED, the record naming the
owner's port and tag, the owner ends ENDED DRIVE_FAULT, and DRIVE_FAULTED goes to all four ports (R38). With other requests
at the drive, in no chain, a recording leg is cut, the early-ended writes are folded into the deferred records (R149), every
other request but SYNCHRONIZE ends ENDED DRIVE_FAULT or ABANDONED CANCELLED. A movement without owner faults the drive at its
first timeout (R29). A clearing recalibrate that times out leaves the drive FAULTED with a new record, RECAL_TIMEOUT, target 0,
no owner, not collected, its CLEAR FAULT requests ended ENDED DRIVE_FAULT, and DRIVE_FAULTED goes to all four ports (R40).
Expiry taken whenever the timer runs is log entry 7, the model's choice. -/
def Obligations.MovementTimesOut : Prop :=
  (∀ (d : Drive) (r : Request) (s : State), s.powered = true → (s.drive d).state = .ready → s.quiet →
    (s.drive d).clearing = false → (s.drive d).owner = some r.rid → s.plain r → r.drive = d → r.op = none →
    r.phase = .idle →
    ∀ (c : Instr) (k : FaultKind) (st : ReqState) (after : AfterHome),
    (c = .seekTimerExpiry d ∧ k = .seekTimeout ∧ st = .seeking ∧ after = .toTarget (s.drive d).tgtCyl
        ∧ (s.drive d).arm = .seeking ∧ (s.drive d).seekTimer ≠ none
      ∨ c = .recalibrateTimerExpiry d ∧ k = .recalTimeout ∧ st = .recalibrating ∧ after = (s.drive d).afterHome
        ∧ (s.drive d).arm = .recalibrating ∧ (s.drive d).recalTimer ≠ none) →
    r.state = st →
    ((s.drive d).retryMark = false →
      exec c s = .next (State.flush (((s.leavePaths r.rid).withRequest { r with state := .recalibrating }).onDrive d
        fun dr =>
          { dr with
            retryMark := true, tgtCyl := 0, arm := .recalibrating, recalTimer := some 500000, seekTimer := none
            afterHome := after })))
    ∧ ((s.drive d).retryMark = true → (∀ q ∈ s.table, q.drive = d → q = r) → (s.table.map (·.rid)).Pairwise (· < ·) →
        (s.drive d).labelUpdate = none → r.cancelPending = false → r.kind ≠ .synchronize → r.earlyEffective = false →
      let u := s.onDrive d fun dr =>
        { dr with
          state := .faulted, arm := .idle, owner := none, spinTimer := none, seekTimer := none, recalTimer := none
          retryMark := false, clearing := false, load := LoadRec.initial
          fault := some { kind := k, curCyl := dr.curCyl, tgtCyl := dr.tgtCyl, owner := some (r.port, r.tag)
                          collected := false } }
      let v := u.conclude r.rid (Ending.make .ended .driveFault)
      ∃ t, exec c s = .next (State.flush t) ∧ t = { v with ports := t.ports }
        ∧ ∀ q : Port, t.port q = (v.port q).posted .driveFaulted (.drive d) .none))
  ∧ (∀ (d : Drive) (s : State), s.powered = true → (s.drive d).clearing = true → (s.drive d).arm = .recalibrating →
    (s.drive d).recalTimer ≠ none → s.clearsPlainly d →
    ∃ t, exec (.recalibrateTimerExpiry d) s = .next (State.close s t)
      ∧ s.clearedOut t d (s.clearers d) (Ending.make .ended .driveFault)
      ∧ t.drive d = { s.drive d with
          recalTimer := none, arm := .idle, clearing := false
          fault := some { kind := .recalTimeout, curCyl := (s.drive d).curCyl, tgtCyl := 0, owner := none
                          collected := false } }
      ∧ ∀ p : Port, (t.port p).notices = postInto (s.port p).notices .driveFaulted (.drive d) .none
          ∧ (t.port p).noticeLine = (s.port p).settings.noticeLineEnable)
  ∧ ∀ (d : Drive) (s : State) (c : Instr) (k : FaultKind), s.powered = true → (s.drive d).clearing = false →
    s.fansPlainly d →
    (c = .seekTimerExpiry d ∧ k = .seekTimeout ∧ (s.drive d).arm = .seeking ∧ (s.drive d).seekTimer ≠ none
      ∨ c = .recalibrateTimerExpiry d ∧ k = .recalTimeout ∧ (s.drive d).arm = .recalibrating
        ∧ (s.drive d).recalTimer ≠ none) →
    (∀ r, (s.drive d).owner = some r.rid → s.entry r → (s.drive d).retryMark = true →
      ∃ t, exec c s = .next (State.close s t) ∧ s.faultedBy t d k (some (r.port, r.tag)))
    ∧ ((s.drive d).owner = none → s.cancelled d = [] →
      ∃ t, exec c s = .next (State.close s t) ∧ s.faultedBy t d k none)

/-- The sector event of a claim sector (R31, R93 to R95), at a request POSITIONED on cylinder: a write leg that finds the
pack protected ends its request ENDED WRITE_PROTECTED (R94); a half that is not ready leaves all as it was; else the request
asks for a sparing of its track where it is a write leg on a track whose tally has reached SUSPECT_THRESHOLD with AUTO_SPARE on
(R126), and otherwise claims the path reserved for it, or P0 when it is FREE, or P1, the head selected and the misses 0; with no
path to be had its misses rise, and at PREFERENCE_MISSES it joins the preference list. -/
def Obligations.ClaimMade : Prop :=
  ∀ (d : Drive) (n : Fin 24) (read : SurfaceRead) (r : Request) (s : State), s.powered = true →
    (s.drive d).motor = .atSpeed → (s.drive d).state = .ready → (s.drive d).arm = .onCylinder → s.quiet →
    (s.drive d).owner = some r.rid → s.plain r → r.drive = d → r.kind.isData = true → r.op = none → r.label = none →
    r.format = none → r.state = .positioned → r.phase = .idle →
    let l := s.leg r
    n.val = claimSector l.sector → cylOf l.track = (s.drive d).curCyl →
    let u := s.onDrive d fun dr => { dr with sector := n.val, elapsed := 0 }
    (l.writesData = true → (s.drive d).writeProtect = true →
      exec (.sectorEvent d n read) s = .next (State.close s
        (u.conclude r.rid (Ending.at .ended .writeProtected (addrOf (blockOf r.addr + r.workBlock))))))
    ∧ ((l.writesData = true → (s.drive d).writeProtect = false) → r.ready = false →
      exec (.sectorEvent d n read) s = .next (State.flush u))
    ∧ ((s.drive d).writeProtect = false → r.ready = true → s.settings.autoSpare = true →
      (r.kind = .writeBlocks ∨ r.kind = .writeAndCheck ∧ r.checking = false) → r.trial = none →
      s.settings.suspectThreshold ≤ tallyOf (s.drive d).suspects l.track →
      exec (.sectorEvent d n read) s = .next (State.close s (State.askSparing u r.rid)))
    ∧ ((l.writesData = true → (s.drive d).writeProtect = false) → r.ready = true →
      (s.settings.autoSpare = true → tallyOf (s.drive d).suspects l.track < s.settings.suspectThreshold) →
      let took := (u.onDrive d fun dr => { dr with head := headOf l.track }).withRequest
        { r.filling with state := .transferring, misses := 0, phase := .claimed }
      (s.path0 = .reserved r.rid →
        exec (.sectorEvent d n read) s = .next (State.flush { took with path0 := .claimed r.rid }))
      ∧ (s.path0 ≠ .reserved r.rid → s.path1 = .reserved r.rid →
        exec (.sectorEvent d n read) s = .next (State.flush { took with path1 := .claimed r.rid }))
      ∧ (s.path0 ≠ .reserved r.rid → s.path1 ≠ .reserved r.rid →
        (s.path0 = .free → exec (.sectorEvent d n read) s = .next (State.flush { took with path0 := .claimed r.rid }))
        ∧ (s.path0 ≠ .free → s.path1 = .free →
          exec (.sectorEvent d n read) s = .next (State.flush { took with path1 := .claimed r.rid }))
        ∧ (s.path0 ≠ .free → s.path1 ≠ .free →
          let m := min 7 (r.misses + 1)
          exec (.sectorEvent d n read) s = .next (State.flush
            { u.withRequest { r with misses := m } with
              preference := if s.settings.preferenceMisses ≤ m ∧ r.rid ∉ s.preference then s.preference ++ [r.rid]
                else s.preference }))))

/-- The sector events of a leg (R31, R98): the block of a claimed leg begins at its own sector, or, write fault standing
raised, faults the drive (R32); the end of a good sector of a write leaves the half's block and its check code on the pack
(R12, R110), of a read leaves the block in the current half (R109), the next block advances, and the next sector begins. With
the last block a write ends DONE (R110), a read's disk side is done (R109). CHECK BLOCKS goes on by blocks checked, with
COMPARE those that agree with the half, and ends COMPARE_MISMATCH at the first that does not (R112, R113). WRITE AND CHECK
records the blocks of a leg and then checks them (R111), and goes on to the next pair of legs. With the last block of a round
(R101) the halves change places, the half of a read DRAINING (R102), that of a write WANTED for the round two beyond it, its
data-wanted frame given, or EMPTY (R103); the leg goes on where the other half is ready, and else slips: the path is
released, the request POSITIONED, and a read with both halves DRAINING has its timer started (R106). At the end of a track
(R99) a next block on the next home track of the same cylinder is reached by a head switch that keeps the path, or ends a
write ENDED WRITE_PROTECTED where the pack is protected (R94); any other is reached by a new claim, the arm sent to its
cylinder. A map disagreement puts the home on trial on a free alternate that it names (R128) and else ends the request ENDED
SPARE_MAP_FAULT (R129). A trial that passes adds its assignment, origin ADOPTED, and queues a label update, and makes the
spares-low check (R128, R130, R132). A drive that is neither READY nor LOADING takes the sector counter alone. What the heads
deliver, as operand, and recording at the sector's end are log entry 11, where the arm in fact stands log entry 12, both the
model's choice. -/
def Obligations.SectorPasses : Prop :=
  (∀ (d : Drive) (n : Fin 24) (read : SurfaceRead) (s : State), s.powered = true → (s.drive d).motor = .atSpeed →
    s.quiet →
    let u := s.onDrive d fun dr => { dr with sector := n.val, elapsed := 0 }
    ((s.drive d).state ≠ .ready → (s.drive d).state ≠ .loading →
      exec (.sectorEvent d n read) s = .next (State.flush u))
    ∧ ∀ r : Request, (s.drive d).state = .ready → (s.drive d).owner = some r.rid → s.plain r → r.drive = d →
      r.op = none → r.label = none → r.format = none → r.state = .transferring → r.cancelPending = false →
      r.held = none → r.trial = none → r.failed = [] → (s.drive d).writeFault = false →
      let l := s.leg r
      (r.phase = .claimed → l.sector = n.val →
        exec (.sectorEvent d n read) s = .next (State.flush (u.withRequest { r with phase := .passing })))
      ∧ (r.phase = .passing → r.nextBlock + 1 < r.count → r.nextBlock + 1 ≠ 12 * (r.round + 1) →
          (s.leg { r with nextBlock := r.nextBlock + 1 }).track = l.track → (l.sector + 1) % 24 = n.val →
        let found := (s.drive d).found l.sector read
        let at_ := (s.drive d).underHeads l.sector
        (r.kind = .writeBlocks → r.current.state = .full →
            idCondition found.id (s.drive d).curCyl (s.drive d).head l.sector l.expect = none →
          exec (.sectorEvent d n read) s = .next (State.flush
            ((u.withRequest { r with
                nextBlock := r.nextBlock + 1, blocksDone := r.nextBlock + 1, retries := 0, readTimer := none }).onDrive d
              fun dr => dr.record at_ (overwrite ((s.drive d).recorded at_) found r.blockToWrite))))
        ∧ (r.kind = .readBlocks → r.current.state = .filling → r.nextBlock + 1 < r.count →
            readCondition found (s.drive d).curCyl (s.drive d).head l.sector l.expect = none →
          exec (.sectorEvent d n read) s = .next (State.flush
            (u.withRequest { r.setHalf r.curHalf { r.current with
                blocks := r.current.blocks ++ [found.data.block] } with
              nextBlock := r.nextBlock + 1, retries := 0, readTimer := none })))))
  ∧ (∀ (d : Drive) (n : Fin 24) (read : SurfaceRead) (s : State) (r : Request), s.onSector d r → r.op = none →
    r.label = none → r.format = none → r.trial = none → r.failed = [] →
    let u := s.onDrive d fun dr => { dr with sector := n.val, elapsed := 0 }
    let l := s.leg r
    let found := (s.drive d).found l.sector read
    let at_ := (s.drive d).underHeads l.sector
    let recorded := u.onDrive d fun dr => dr.record at_ (overwrite ((s.drive d).recorded at_) found r.blockToWrite)
    let idGood := idCondition found.id (s.drive d).curCyl (s.drive d).head l.sector l.expect = none
    let readGood := readCondition found (s.drive d).curCyl (s.drive d).head l.sector l.expect = none
    let q := { r with nextBlock := r.nextBlock + 1, blocksDone := r.nextBlock + 1, retries := 0, readTimer := none }
    (r.kind = .writeBlocks → r.nextBlock + 1 = r.count → idGood →
      exec (.sectorEvent d n read) s = .next (State.close s ((recorded.withRequest q).conclude r.rid q.doneEnding)))
    ∧ (r.kind = .readBlocks → r.nextBlock + 1 = r.count → readGood →
      let x := r.retime
        { r.setHalf r.curHalf { r.current with blocks := r.current.blocks ++ [found.data.block] } with
          nextBlock := r.nextBlock + 1, retries := 0 } (s.port r.port).settings.waitTimer
      exec (.sectorEvent d n read) s = .next (State.close s (u.withRequest { x with phase := .idle })))
    ∧ (r.kind = .checkBlocks → readGood →
      (r.compare = false ∨ found.data.block = r.blockToWrite →
        (r.nextBlock + 1 = r.count →
          exec (.sectorEvent d n read) s = .next (State.close s ((u.withRequest q).conclude r.rid q.doneEnding)))
        ∧ (r.nextBlock + 1 < r.count → r.nextBlock + 1 ≠ 12 * (r.round + 1) → r.ready = true →
          (s.leg { r with nextBlock := r.nextBlock + 1 }).track = l.track → (l.sector + 1) % 24 = n.val →
          exec (.sectorEvent d n read) s = .next (State.close s (u.withRequest q))))
      ∧ (r.compare = true → found.data.block ≠ r.blockToWrite → s.onPath0 r →
        exec (.sectorEvent d n read) s = .next (State.close s
          ((u.path0Handed.withRequest { r with state := .positioned, phase := .idle }).conclude r.rid
            (Ending.at .ended .compareMismatch (addrOf (blockOf r.addr + r.nextBlock)))))))
    ∧ (r.kind = .writeAndCheck → r.checking = false → idGood →
      let last := min (12 * r.round + 11) (r.count - 1)
      (l.sector ≠ 23 → r.writePos + 1 ≤ last → (s.drive d).writeFault = false → (l.sector + 1) % 24 = n.val →
        exec (.sectorEvent d n read) s = .next (State.close s (recorded.withRequest { r with writePos := r.writePos + 1 })))
      ∧ (l.sector = 23 ∨ last < r.writePos + 1 → s.onPath0 r →
        exec (.sectorEvent d n read) s = .next (State.close s (recorded.path0Handed.withRequest
          { r with writePos := r.writePos + 1, checking := true, state := .positioned, phase := .idle }))))
    ∧ (r.kind = .writeAndCheck → r.checking = true → readGood → found.data.block = r.blockToWrite →
      (r.nextBlock + 1 < r.writePos → (l.sector + 1) % 24 = n.val →
        exec (.sectorEvent d n read) s = .next (State.close s (u.withRequest q)))
      ∧ (r.writePos ≤ r.nextBlock + 1 → r.nextBlock + 1 = r.count →
        exec (.sectorEvent d n read) s = .next (State.close s ((u.withRequest q).conclude r.rid q.doneEnding)))
      ∧ (r.writePos ≤ r.nextBlock + 1 → r.nextBlock + 1 < r.count → s.onPath0 r →
        let turns := r.nextBlock + 1 = 12 * (r.round + 1)
        let x := { q with checking := false, phase := .idle }
        let c := cylOf (s.leg x).track
        exec (.sectorEvent d n read) s = .next (State.close s
          (((if turns then u.askedOn r else u).path0Handed.withRequest
            ((if turns then x.turned else x).sentBy (s.drive d) c)).onDrive d fun dr => dr.sentTo c)))))
  ∧ (∀ (d : Drive) (n : Fin 24) (read : SurfaceRead) (s : State) (r : Request), s.onSector d r → s.onPath0 r →
    r.op = none → r.label = none → r.format = none → r.trial = none → r.failed = [] → r.nextBlock + 1 < r.count →
    (r.kind = .readBlocks ∧ r.current.state = .filling ∧ r.blocksDone ≤ r.nextBlock
      ∨ r.kind = .writeBlocks ∧ r.current.state = .full) →
    let l := s.leg r
    let dr := s.drive d
    let found := dr.found l.sector read
    let at_ := dr.underHeads l.sector
    let u := s.onDrive d fun dr => { dr with sector := n.val, elapsed := 0 }
    let v := if r.kind = .readBlocks then u
      else u.onDrive d fun dr => dr.record at_ (overwrite ((s.drive d).recorded at_) found r.blockToWrite)
    let q := if r.kind = .readBlocks then
        { r.setHalf r.curHalf { r.current with blocks := r.current.blocks ++ [found.data.block] } with
          nextBlock := r.nextBlock + 1, retries := 0, readTimer := none }
      else { r with nextBlock := r.nextBlock + 1, blocksDone := r.nextBlock + 1, retries := 0, readTimer := none }
    let slipped := fun (w : State) (q : Request) => w.path0Handed.withRequest { q with state := .positioned, phase := .idle }
    let next := s.leg { r with nextBlock := r.nextBlock + 1 }
    (r.kind = .readBlocks → readCondition found dr.curCyl dr.head l.sector l.expect = none) →
    (r.kind = .writeBlocks → idCondition found.id dr.curCyl dr.head l.sector l.expect = none) →
    (r.nextBlock + 1 = 12 * (r.round + 1) → next.track = l.track →
      let other := r.half (!r.curHalf)
      (r.kind = .readBlocks →
        let x := { q with curHalf := !r.curHalf }.setHalf r.curHalf { q.current with state := .draining }
        (other.state = .empty → next.sector = n.val →
          exec (.sectorEvent d n read) s = .next (State.close s (v.withRequest
            (x.setHalf (!r.curHalf) { other with state := .filling, blocks := [], round := r.round + 1 }))))
        ∧ (other.state = .draining →
          exec (.sectorEvent d n read) s = .next (State.close s (slipped v
            { x.setHalf (!r.curHalf) { other with round := r.round + 1 } with
              readTimer := (s.port r.port).settings.waitTimer }))))
      ∧ (r.kind = .writeBlocks →
        (other.state = .full → next.sector = n.val → dr.writeFault = false →
          exec (.sectorEvent d n read) s = .next (State.close s ((v.askedOn r).withRequest q.turned)))
        ∧ (other.state ≠ .full →
          exec (.sectorEvent d n read) s = .next (State.close s (slipped (v.askedOn r) q.turned)))))
    ∧ (r.nextBlock + 1 ≠ 12 * (r.round + 1) → next.track ≠ l.track →
      let switches := l.sector = 23 ∧ next.track = (blockOf r.addr + r.nextBlock + 1) / 24 ∧ cylOf next.track = dr.curCyl
      (switches → next.sector = n.val → (r.kind = .writeBlocks → dr.writeProtect = false ∧ dr.writeFault = false
          ∧ (s.settings.autoSpare = true → tallyOf dr.suspects next.track < s.settings.suspectThreshold)) →
        exec (.sectorEvent d n read) s = .next (State.close s
          ((v.onDrive d fun dr => { dr with head := headOf next.track }).withRequest q)))
      ∧ (switches → r.kind = .writeBlocks → dr.writeProtect = true →
        exec (.sectorEvent d n read) s = .next (State.close s ((slipped v q).conclude r.rid
          (Ending.at .ended .writeProtected (addrOf (blockOf r.addr + r.nextBlock + 1))))))
      ∧ (switches → r.kind = .writeBlocks → dr.writeProtect = false → s.settings.autoSpare = true →
        s.settings.suspectThreshold ≤ tallyOf dr.suspects next.track →
        exec (.sectorEvent d n read) s = .next (State.close s (State.askSparing (slipped v q) r.rid)))
      ∧ (¬switches →
        exec (.sectorEvent d n read) s = .next (State.close s
          ((v.path0Handed.withRequest ({ q with phase := .idle }.sentBy dr (cylOf next.track))).onDrive d fun dr =>
            dr.sentTo (cylOf next.track))))))
  ∧ (∀ (d : Drive) (n : Fin 24) (read : SurfaceRead) (s : State) (r : Request) (link : Option Nat), s.onSector d r →
    s.onPath0 r → r.op = none → r.label = none → r.format = none → r.kind.isData = true → r.raw = false →
    let l := s.leg r
    let dr := s.drive d
    let found := dr.found l.sector read
    let u := (s.onDrive d fun dr => { dr with sector := n.val, elapsed := 0 }).path0Handed
    let b := blockOf r.addr + r.workBlock
    idCondition found.id dr.curCyl dr.head l.sector l.expect = some (.disagree link) →
    (∀ t k, link = some t → altIndex? t = some k → k ∈ freeIndices dr.map.entries → r.trial = none →
      exec (.sectorEvent d n read) s = .next (State.close s
        ((u.withRequest ({ r with trial := some (b / 24, k), phase := .idle }.sentBy dr (cylOf (altTrack k)))).onDrive d
          fun dr => dr.sentTo (cylOf (altTrack k)))))
    ∧ ((r.trial ≠ none ∨ ∀ t k, link = some t → altIndex? t = some k → k ∉ freeIndices dr.map.entries) →
      exec (.sectorEvent d n read) s = .next (State.close s
        (u.conclude r.rid (Ending.at .ended .spareMapFault (addrOf b))))))
  ∧ (∀ (d : Drive) (n : Fin 24) (read : SurfaceRead) (s : State) (r : Request) (k : Nat), s.onSector d r → r.op = none →
    r.label = none → r.format = none → r.failed = [] → r.kind = .readBlocks → r.raw = false →
    let es := (s.drive d).map.entries
    let home := (blockOf r.addr + r.nextBlock) / 24
    let l := s.leg r
    let found := (s.drive d).found l.sector read
    r.trial = some (home, k) → lookupHome es home = none → (s.drive d).labelUpdate = none →
    r.current.state = .filling → r.nextBlock + 1 < r.count → r.nextBlock + 1 ≠ 12 * (r.round + 1) →
    (blockOf r.addr + r.nextBlock + 1) / 24 = home → (l.sector + 1) % 24 = n.val →
    readCondition found (s.drive d).curCyl (s.drive d).head l.sector (.alternate home) = none →
    exec (.sectorEvent d n read) s = .next (State.close s
      (State.sparesWarned
        { (s.onDrive d fun dr =>
            { dr with
              sector := n.val, elapsed := 0, labelUpdate := some (newLabelUpdate s.nextOrder d)
              map := { dr.map with entries := addEntry es (.assign home k .adopted), labelState := .pending } }).withRequest
            { r.setHalf r.curHalf { r.current with blocks := r.current.blocks ++ [found.data.block] } with
              nextBlock := r.nextBlock + 1, retries := 0, readTimer := none, trial := none } with
          nextOrder := s.nextOrder + 1 } d)))
  ∧ ∀ (d : Drive) (n : Fin 24) (read : SurfaceRead) (s : State) (r : Request), s.powered = true →
    (s.drive d).motor = .atSpeed → (s.drive d).state = .ready → (s.drive d).owner = some r.rid → s.entry r →
    r.drive = d → r.phase = .claimed → r.pendingEnding = none → (s.leg r).writesData = true →
    (s.leg r).sector = n.val → (s.drive d).writeFault = true → s.fansPlainly d →
    ∃ t, exec (.sectorEvent d n read) s = .next (State.close s t)
      ∧ (s.onDrive d fun dr => { dr with sector := n.val, elapsed := 0 }).faultedBy t d .writeFault
          (some (r.port, r.tag))

/-- The levels a spindle presents (R19, R32 to R34, R37): presence at an ABSENT drive makes it STOPPED with its levels
and strap as sensed; write fault with no leg recording, its drop, and write protect change their own level; write fault
while a leg records cuts the leg and faults the drive (R32); the door and the pack at a STOPPED drive change theirs, a removed
pack taking serial and map; a door opened or a pack removed at a drive READY, STARTING or LOADING stops it and ends the requests
it has as a stop does (R34, R35), and at a STOPPING drive changes its level, a removed pack's serial and map going at rest in
both; at a FAULTED drive the motor, AT_SPEED, becomes COASTING, a clearing is cut, its CLEAR FAULT requests ended ABANDONED
DRIVE_STOPPED (R40, R41), and a removed pack takes serial and map at once (R34). A door closed or a pack seated that lets a drive
of the start list start, starts it at once (R21). Sensing by operands and repeated levels are log entries 14 and 31. -/
def Obligations.LevelsTaken : Prop :=
  ∀ (d : Drive) (s : State), s.powered = true →
    (∀ x : SpindleSense, (s.drive d).state = .absent → x.present = true →
      ∃ pk, exec (.spindleSensed d x) s = .next (s.onDrive d fun dr =>
          { dr with
            state := .stopped, motor := .off, arm := .idle, pack := pk, packSeated := pk.isSome
            doorClosed := x.doorClosed, writeProtect := x.writeProtect, writeFault := x.writeFault
            startStrap := x.startStrap })
        ∧ (∀ q, x.pack = .seated q → pk = some q) ∧ (x.pack = .none → pk = none)
        ∧ (x.pack = .same → pk = (s.drive d).pack))
    ∧ ((s.drive d).state ≠ .absent →
      (∀ b, exec (.writeProtectChange d b) s = .next (s.onDrive d fun dr => { dr with writeProtect := b }))
      ∧ exec (.writeFaultDropped d) s = .next (s.onDrive d fun dr => { dr with writeFault := false })
      ∧ (s.quiet → s.recording d = none →
        exec (.writeFaultRaised d) s = .next (State.flush (s.onDrive d fun dr => { dr with writeFault := true })))
      ∧ (∀ r, s.recording d = some r → r.kind ≠ .labelUpdate → s.fansPlainly d →
        ∃ t, exec (.writeFaultRaised d) s = .next (State.close s t)
          ∧ (s.onDrive d fun dr => { dr with writeFault := true }).faultedBy t d .writeFault (some (r.port, r.tag)))
      ∧ ((s.drive d).state = .ready ∨ (s.drive d).state = .starting ∨ (s.drive d).state = .loading →
        (s.drive d).unit.owner = none → s.fansPlainly d →
        let stopped := fun (u t : State) =>
          u.fannedOut t d (Ending.make .abandoned .driveStopped) (fun _ => false)
          ∧ ∀ x : Port, ofPort (t.drive d).deferred x = u.foldedRecord d x
            ∧ (t.port x).notices = u.foldedNotices d x
            ∧ (t.port x).noticeLine =
                if u.foldsAnew d x then (s.port x).settings.noticeLineEnable else (s.port x).noticeLine
        ((s.drive d).doorClosed = true →
          let u := s.onDrive d fun dr => { dr with doorClosed := false }
          ∃ t, exec (.doorOpened d) s = .next (State.close s t) ∧ stopped u t ∧ u.packCut d (t.drive d).pack
            ∧ t.drive d = { (u.drive d).still with
                state := .stopping, motor := .coasting, deferred := (t.drive d).deferred, pack := (t.drive d).pack })
        ∧ ((s.drive d).packSeated = true →
          let u := s.onDrive d fun dr => { dr with packSeated := false }
          ∃ t, exec (.packRemoved d) s = .next (State.close s t) ∧ stopped u t
            ∧ t.drive d = { (u.drive d).still with
                state := .stopping, motor := .coasting, deferred := (t.drive d).deferred, pack := none, packLeft := true }))
      ∧ ((s.drive d).state = .faulted → ((s.drive d).clearing = true → s.clearsPlainly d) →
        let cut := (s.drive d).clearing
        let open_ := fun (dr : DriveRec) =>
          { dr with
            motor := if dr.motor = Motor.atSpeed then Motor.coasting else dr.motor, clearing := false
            arm := if cut then .idle else dr.arm, recalTimer := if cut then none else dr.recalTimer }
        let leaves := fun (t : State) =>
          s.clearedOut t d (if cut then s.clearers d else []) (Ending.make .abandoned .driveStopped)
          ∧ ∀ p : Port, (t.port p).notices = (s.port p).notices ∧ (t.port p).noticeLine = (s.port p).noticeLine
        ((s.drive d).doorClosed = true →
          ∃ t, exec (.doorOpened d) s = .next (State.close s t) ∧ leaves t
            ∧ t.drive d = { open_ (s.drive d) with doorClosed := false })
        ∧ ((s.drive d).packSeated = true →
          ∃ t, exec (.packRemoved d) s = .next (State.close s t) ∧ leaves t
            ∧ t.drive d = { open_ (s.drive d) with
                packSeated := false, pack := none, serial := none, map := MapRec.initial, suspects := [] }))
      ∧ (s.quiet → (s.drive d).state = .stopping →
        ((s.drive d).doorClosed = true →
          exec (.doorOpened d) s = .next (State.flush (s.onDrive d fun dr => { dr with doorClosed := false })))
        ∧ ((s.drive d).packSeated = true →
          exec (.packRemoved d) s = .next (State.flush (s.onDrive d fun dr =>
            { dr with packSeated := false, pack := none, packLeft := true }))))
      ∧ (s.quiet → d ∈ s.startList → (s.drive d).state = .stopped → s.gateOpen = true →
        (allDrives.filter fun e => decide ((s.drive e).state = .starting)).length < 2 →
        let begun := fun (f : DriveRec → DriveRec) =>
          { s with startList := s.startList.filter (· != d), gateOpen := false, gapTimer := some 8000000 }.onDrive d
            fun dr => { f dr with state := .starting, motor := .accelerating, spinTimer := some 45000000 }
        ((s.drive d).packSeated = true →
          exec (.doorClosed d) s = .next (State.flush (begun fun dr => { dr with doorClosed := true })))
        ∧ (∀ pk, (s.drive d).packSeated = false → (s.drive d).doorClosed = true →
          exec (.packSeated d pk) s = .next (State.flush (begun fun dr =>
            { dr with packSeated := true, pack := some pk }))))
      ∧ (s.quiet → d ∉ s.startList →
        exec (.doorClosed d) s = .next (State.flush (s.onDrive d fun dr => { dr with doorClosed := true }))
        ∧ (∀ pk, (s.drive d).packSeated = false →
          exec (.packSeated d pk) s = .next (State.flush (s.onDrive d fun dr =>
            { dr with packSeated := true, pack := some pk })))
        ∧ ((s.drive d).state = .stopped →
          ((s.drive d).doorClosed = true →
            exec (.doorOpened d) s = .next (State.flush (s.onDrive d fun dr => { dr with doorClosed := false })))
          ∧ ((s.drive d).packSeated = true →
            exec (.packRemoved d) s = .next (State.flush (s.onDrive d fun dr =>
              { dr with packSeated := false, pack := none, serial := none, map := MapRec.initial, suspects := [] }))))
        ∧ ((s.drive d).state = .ready → s.unused d → (s.drive d).unit.owner = none →
          let halt := fun (dr : DriveRec) =>
            { dr with
              state := .stopping, motor := .coasting, arm := .idle, spinTimer := none, seekTimer := none
              recalTimer := none, retryMark := false, clearing := false, load := LoadRec.initial }
          ((s.drive d).doorClosed = true →
            exec (.doorOpened d) s = .next (State.flush (s.onDrive d fun dr => { halt dr with doorClosed := false })))
          ∧ ((s.drive d).packSeated = true →
            exec (.packRemoved d) s = .next (State.flush (s.onDrive d fun dr =>
              { halt dr with packSeated := false, pack := none, packLeft := true }))))))

/-! ### Packs, maps and estimates -/

/-- Block and track numbers (R2): the address of a block number and the block number of an address are inverse over
the pack, and an alternate index names the track of the spare cylinders that gives it back. -/
def Obligations.NumbersAgree : Prop :=
  (∀ n, n < 218496 → blockOf (addrOf n) = n ∧ addressValid (addrOf n) = true)
    ∧ (∀ a : Addr, addressValid a = true → addrOf (blockOf a) = a ∧ blockOf a < 218496)
    ∧ (∀ k, k < 128 → altIndex? (altTrack k) = some k ∧ cylOf (altTrack k) = 560 + k / 16 ∧ headOf (altTrack k) = k % 16)
    ∧ ∀ t k, altIndex? t = some k → altTrack k = t ∧ k < 128

/-- The seek-time profile (R83): 0 for no movement, three lines over the distances 1 to 15, 16 to 99 and 100 to 568,
rising everywhere. -/
def Obligations.SeekProfileValues : Prop :=
  seekProfile 0 = 0
    ∧ (∀ d, 1 ≤ d → d ≤ 15 → seekProfile d = 4000 + 600 * (d - 1))
    ∧ (∀ d, 16 ≤ d → d ≤ 99 → seekProfile d = 12600 + 120 * (d - 16))
    ∧ (∀ d, 100 ≤ d → d ≤ 568 → seekProfile d = 22600 + 40 * (d - 100))
    ∧ ∀ a b, a < b → seekProfile a < seekProfile b

/-- The estimate of a request with a target sector (R85): it ends one sector time after the claim sector next comes,
at least 701 and at most 17,500 microseconds beyond the seek, and at that time the drive stands at the target sector. The
score is the estimate less 4,000 for each step of priority (R86). A decision is possible only at a free arm, and chooses an
eligible request of its drive's queue (R76, R77): the first with chain precedence, else the first that is overdue, else one
of the least score, the oldest of those (R80). The queue holds the drive's QUEUED requests and its queued label update (R73). A
request is barred (R78) by a request whose extent shares a track with its own, one of the two write-class, that is older in the
table, QUEUED or in WAITING_CHAIN for the drive, or owns the arm. It is eligible when it is not barred and, if it is a data
request, two segments are free and either no overdue segment waiter exists anywhere in the string or it is itself the oldest
overdue segment waiter (R79, R100), and, if it is SPARE TRACK or RETURN ALTERNATE, nobody holds the sparing buffer (R79).
Every other queued request of the drive, the label update too, gains one pass, up to 15 (R81). The queue and the segment
waiters read off the table are log entry 33, the model's reading. -/
def Obligations.EstimateReachesSector : Prop :=
  (∀ angle cur target sector, angle < 16800 → sector < 24 →
    let e := transferEstimate angle cur target sector
    let seek := seekProfile (distance cur target)
    seek + 701 ≤ e ∧ e ≤ seek + 17500 ∧ (angle + e) % 16800 = sector * 700)
  ∧ (∀ (s : State) (r : Request) (c : Nat),
    let dr := s.drive r.drive
    (∀ sec, s.target r = (c, some sec) →
      s.score r = (transferEstimate (dr.sector * 700 + dr.elapsed) dr.curCyl c sec : Int) - 4000 * r.priority)
    ∧ (s.target r = (c, none) → s.score r = (seekProfile (distance dr.curCyl c) : Int) - 4000 * r.priority))
  ∧ (∀ (s : State) (d : Drive) (r : Request), s.decision? d = some r →
    (s.drive d).armFree = true ∧ r ∈ s.queue d ∧ s.barred r = false ∧ s.eligible r = true
    ∧ ∃ older younger, (s.queue d).filter s.eligible = older ++ r :: younger
      ∧ (r.chainPrecedence = true ∧ (∀ q ∈ older, q.chainPrecedence = false)
        ∨ (∀ q ∈ older ++ r :: younger, q.chainPrecedence = false)
          ∧ (s.settings.overduePasses ≤ r.passes ∧ (∀ q ∈ older, q.passes < s.settings.overduePasses)
            ∨ (∀ q ∈ older ++ r :: younger, q.passes < s.settings.overduePasses)
              ∧ (∀ q ∈ older, s.score r < s.score q) ∧ ∀ q ∈ younger, s.score r ≤ s.score q)))
  ∧ (∀ (s : State) (d : Drive), s.decision? d = none ↔
      (s.drive d).armFree = false ∨ ∀ q ∈ s.queue d, s.eligible q = false)
  ∧ (∀ (s : State) (d : Drive),
    ((s.drive d).armFree = true ↔ (s.drive d).state = .ready ∧ (s.drive d).arm = .idle ∧ (s.drive d).owner = none)
    ∧ ∀ q, q ∈ s.queue d ↔ q.state = .queued ∧ (q ∈ s.table ∧ q.drive = d ∨ (s.drive d).labelUpdate = some q))
  ∧ (∀ (s : State) (r : Request),
    let waits := fun (x : Request) =>
      (∃ d : Drive, (s.drive d).armFree = true ∧ x ∈ s.queue d) ∧ x.kind.isData = true ∧ s.barred x = false
        ∧ s.settings.overduePasses ≤ x.passes
    (s.barred r = true ↔ ∃ q : Request,
      (∃ a b x y, q.extent = some (a, b) ∧ r.extent = some (x, y) ∧ a ≤ y ∧ x ≤ b)
      ∧ (q.kind.writeClass = true ∨ r.kind.writeClass = true)
      ∧ (q ∈ s.table ∧ q.drive = r.drive ∧ q.rid < r.rid ∧ (q.state = .queued ∨ q.state = .waitingChain)
        ∨ s.owner? r.drive = some q))
    ∧ (s.eligible r = true ↔ s.barred r = false
      ∧ (r.kind.isData = true →
        (∃ i j : Fin 8, i ≠ j ∧ s.segments[i] = none ∧ s.segments[j] = none)
        ∧ ((∀ x, ¬waits x) ∨ ∃ x, waits x ∧ x.rid = r.rid ∧ ∀ y, waits y → x.rid ≤ y.rid))
      ∧ (r.kind = .spareTrack ∨ r.kind = .returnAlternate → s.buffer.holder = none)))
  ∧ ∀ (s : State) (d : Drive) (n : Nat),
    let t := s.countPasses d n
    let passed := fun (q : Request) => { q with passes := min 15 (q.passes + 1) }
    t = { s with table := t.table, drives := t.drives }
    ∧ t.table = s.table.map (fun q => if q.drive = d ∧ q.state = .queued ∧ q.rid ≠ n then passed q else q)
    ∧ (∀ x : Drive, x ≠ d → t.drive x = s.drive x)
    ∧ t.drive d = { s.drive d with labelUpdate := (t.drive d).labelUpdate }
    ∧ ((s.drive d).labelUpdate = none → (t.drive d).labelUpdate = none)
    ∧ ∀ q, (s.drive d).labelUpdate = some q → q.drive = d →
        (t.drive d).labelUpdate = some (if q.state = .queued ∧ q.rid ≠ n then passed q else q)

/-- The alternate a sparing chooses (R117): the free index of the home's own head on the lowest spare cylinder, else the
lowest free index, none exactly when none is free. The sector events of SPARE TRACK: a sector read good goes into the buffer
(R120); the recording legs record an ALTERNATE sector linking the home, with the buffer's block and void mark (R121), a
DEFECTIVE home sector linking the alternate (R122), a GOOD home sector with the buffer's block, or an UNASSIGNED one (R134),
sector by sector; an alternate found unusable is retired and another chosen, and the request ends SPARE_EXHAUSTED at the
third attempt or where none is free (R121); the end of step 4 adds the assignment, retires a former alternate, queues a label
update (R122, R123) and ends SPARE TRACK DONE TRACK_SPARED (R133). Of RETURN ALTERNATE: the home checked good, its assignment
is removed and the arm sent to the former alternate; that track cleared, the request ends DONE (R134). An automatic sparing
asked for (R126) begins where the buffer is free and nobody waits for it, with the round's blocks on the home in the buffer
(R127), or ends its request SPARE_EXHAUSTED (R119), and waits in SPARING_WAIT otherwise (R118); at its end the copied blocks
are done, and the request ends DONE TRACK_SPARED or goes on (R127). FORMAT TRACK (R135) records each sector with the state
asked for and zeros, checks all 24, and ends DONE, the track's tally and retirement removed; a check that fails, no seek
check, starts the next attempt or ends WRITE_CHECK. A map change that leaves 8 or fewer alternates free with the spares-low
check armed posts SPARES_LOW to all four ports and turns the check off (R132). The model's choices: a sector recorded whole
as it ends, with what the heads deliver as operand (log entry 11), where the arm in fact stands (log entry 12); its readings:
the copied blocks' failures forgotten (log entry 22), the legs of a read that go on from unread sectors (log entry 23). -/
def Obligations.AlternateChosen : Prop :=
  (∀ (es : List MapEntry) (home : Nat),
    (∀ k, chooseAlternate es home = some k → k ∈ freeIndices es ∧ k < 128
      ∧ (k % 16 = home % 16 → ∀ j ∈ freeIndices es, j % 16 = home % 16 → k ≤ j)
      ∧ (k % 16 ≠ home % 16 → (∀ j ∈ freeIndices es, j % 16 ≠ home % 16) ∧ ∀ j ∈ freeIndices es, k ≤ j))
    ∧ (chooseAlternate es home = none ↔ freeIndices es = []))
  ∧ (∀ (s : State) (r : Request), s.entry r → s.pathless r.rid → r.kind.isData = true →
    let es := (s.drive r.drive).map.entries
    let home := (blockOf r.addr + r.nextBlock) / 24
    let slots : List Slot := (List.range 24).map fun sec =>
      let b := home * 24 + sec
      let i := b - blockOf r.addr
      if blockOf r.addr ≤ b ∧ 12 * r.round ≤ i ∧ i ≤ min (12 * r.round + 11) (r.count - 1) then
        .data (r.current.blocks.getD (i - 12 * r.round) zeroBlock)
      else .unread
    (s.buffer.holder ≠ none ∨ s.buffer.waiters ≠ [] →
      s.askSparing r.rid = { s.withRequest { r with state := .sparingWait, phase := .idle } with
        buffer := { s.buffer with waiters := s.buffer.waiters ++ [r.rid] } })
    ∧ (s.buffer.holder = none → s.buffer.waiters = [] → chooseAlternate es home = none → r.pendingEnding = none →
      s.askSparing r.rid = s.conclude r.rid (Ending.at .ended .spareExhausted (sectorZero home)))
    ∧ (∀ k i, s.buffer.holder = none → s.buffer.waiters = [] → chooseAlternate es home = some k →
      slots.getD i .void = .unread → (∀ j < i, slots.getD j .void ≠ .unread) →
      s.askSparing r.rid =
        { s.withRequest { r with
            state := .sparing, phase := .idle
            op := some { step := .readSource, home := home, source := lookupHome es home, alt := k, attempt := 1,
                         origin := .auto, pos := i, revs := 0 } } with
          buffer := { holder := some r.rid, waiters := [], slots := slots } }.onDrive r.drive fun dr =>
        dr.sentTo (cylOf (physicalTrack es home))))
  ∧ (∀ (d : Drive) (n : Fin 24) (read : SurfaceRead) (s : State) (r : Request) (f : FormatJob), s.onSector d r →
    r.op = none → r.label = none → r.format = some f →
    let dr := s.drive d
    let es := dr.map.entries
    let u := s.onDrive d fun dr => { dr with sector := n.val, elapsed := 0 }
    let st := if r.formatUnassigned then stUnassigned else stGood
    let found := dr.found f.pos read
    let c := idCondition found.id dr.curCyl dr.head f.pos (.plain st)
    let good := c = none ∧ found.id.void = 0 ∧ found.data.good = true ∧ found.data.block = zeroBlock
    let recorded := u.onDrive d fun dr => dr.record (dr.underHeads f.pos)
      { id := makeId r.namedTrack f.pos st none false, data := zeroData }
    let checked := u.path0Handed.onDrive d fun dr =>
      { dr with suspects := dr.suspects.filter fun x => decide (x.track ≠ r.namedTrack) }
    (f.checking = false →
      (f.pos < 23 → n.val = f.pos + 1 → dr.writeFault = false →
        exec (.sectorEvent d n read) s = .next (State.close s
          (recorded.withRequest { r with format := some { f with pos := f.pos + 1 } })))
      ∧ (f.pos = 23 → s.onPath0 r →
        exec (.sectorEvent d n read) s = .next (State.close s (recorded.path0Handed.withRequest
          { r with format := some { f with checking := true, pos := 0 }, state := .positioned, phase := .idle }))))
    ∧ (f.checking = true → good →
      (f.pos < 23 → n.val = f.pos + 1 →
        exec (.sectorEvent d n read) s = .next (State.close s
          (u.withRequest { r with format := some { f with pos := f.pos + 1 } })))
      ∧ (f.pos = 23 → s.onPath0 r → (∀ k, altIndex? r.namedTrack = some k → .retire k ∉ es) →
        exec (.sectorEvent d n read) s = .next (State.close s (checked.conclude r.rid (Ending.make .done .none))))
      ∧ (∀ k, f.pos = 23 → s.onPath0 r → altIndex? r.namedTrack = some k → .retire k ∈ es → dr.labelUpdate = none →
        let xs := es.filter fun e => decide (e ≠ .retire k)
        exec (.sectorEvent d n read) s = .next (State.close s ((State.sparesWarned
          { checked.onDrive d fun dr =>
              { dr with
                labelUpdate := some (newLabelUpdate s.nextOrder d)
                map := { dr.map with entries := xs, labelState := .pending } } with nextOrder := s.nextOrder + 1 }
          d).conclude r.rid (Ending.make .done .none)))))
    ∧ (f.checking = true → ¬good → c ≠ some .seek → s.onPath0 r →
      (f.attempt < s.settings.retryLimit →
        exec (.sectorEvent d n read) s = .next (State.close s (u.path0Handed.withRequest
          { r with
            format := some { checking := false, pos := 0, attempt := f.attempt + 1 }, state := .positioned
            phase := .idle })))
      ∧ (s.settings.retryLimit ≤ f.attempt →
        exec (.sectorEvent d n read) s = .next (State.close s (u.path0Handed.conclude r.rid
          (Ending.at .ended .writeCheck { sectorZero r.namedTrack with sector := f.pos }))))))
  ∧ ∀ (d : Drive) (n : Fin 24) (read : SurfaceRead) (s : State) (r : Request) (op : SpareOp), s.onSector d r →
    r.earlyEnded = false → r.op = some op →
    let dr := s.drive d
    let es := dr.map.entries
    let u := s.onDrive d fun dr => { dr with sector := n.val, elapsed := 0 }
    let found := dr.found op.pos read
    let slot := s.buffer.slots.getD op.pos .void
    let idBad := fun (e : Expect) => idCondition found.id dr.curCyl dr.head op.pos e
    let record := fun (x : Sector) => u.onDrive d fun dr => dr.record (dr.underHeads op.pos) x
    let changed := fun (v : State) (xs : List MapEntry) => State.sparesWarned
      { v.onDrive d fun dr =>
          { dr with
            labelUpdate := some (newLabelUpdate s.nextOrder d)
            map := { dr.map with entries := xs, labelState := .pending } } with nextOrder := s.nextOrder + 1 } d
    let sector : Option Sector := match op.step with
      | .writeAlternate => some { id := makeId (altTrack op.alt) op.pos stAlternate (some op.home) slot.isVoid
                                  data := makeData slot.block }
      | .rewriteHome => some { id := makeId op.home op.pos stDefective (some (altTrack op.alt)) false, data := zeroData }
      | .writeHome => some { id := makeId op.home op.pos stGood none slot.isVoid, data := makeData slot.block }
      | .clearAlternate => some { id := makeId op.sourceTrack op.pos stUnassigned none false, data := zeroData }
      | .readSource | .readAlternate | .checkAlternate | .checkHome => none
    let assigned := addEntry (dropHome es op.home) (.assign op.home op.alt op.origin)
    let spared := match op.source with
      | some k => addEntry assigned (.retire k)
      | none => assigned
    let retired := addEntry es (.retire op.alt)
    let unusable := idBad (.alternate op.home) = none ∧ (found.data.good = false ∨ found.data.block ≠ slot.block)
      ∨ ∃ c, idBad (.alternate op.home) = some c ∧ c ≠ .seek
    let goes := fun (v : State) (st : OpStep) (track : Nat) =>
      (v.path0Handed.withRequest { r with phase := .idle, op := some { op with step := st, pos := 0 } }).onDrive d
        fun dr => dr.sentTo (cylOf track)
    let filled := s.buffer.slots.set 23 (.data found.data.block)
    let unread := idBad .any = some .header ∨ idBad .any = none ∧ found.id.void ≠ 1 ∧ found.data.good = false
    let limit := s.settings.retryLimit
    (op.step = .readSource → slot = .unread → op.pos = 23 → s.onPath0 r → r.kind ≠ .position →
      (idBad .any = none → found.id.void ≠ 1 → found.data.good = true → (∀ x ∈ filled, x ≠ .unread) →
        exec (.sectorEvent d n read) s = .next (State.close s
          (goes { u with buffer := { s.buffer with slots := filled } } .writeAlternate (altTrack op.alt))))
      ∧ (∀ i, unread → op.revs < limit → ¬(1 ≤ limit / 2 ∧ op.revs + 1 = limit / 2) →
        s.buffer.slots.getD i .void = .unread → (∀ j < i, s.buffer.slots.getD j .void ≠ .unread) →
        exec (.sectorEvent d n read) s = .next (State.close s (u.path0Handed.withRequest
          { r with phase := .idle, op := some { op with pos := i, revs := op.revs + 1 } })))
      ∧ (unread → limit ≤ op.revs →
        exec (.sectorEvent d n read) s = .next (State.close s
          (goes { u with buffer := { s.buffer with
              slots := s.buffer.slots.map fun x => if x = .unread then .void else x } } .writeAlternate
            (altTrack op.alt)))))
    ∧ (op.step = .readSource → slot = .unread → idBad .any = none → found.id.void ≠ 1 → found.data.good = true →
      op.revs = 0 → op.pos < 23 → n.val = op.pos + 1 →
      exec (.sectorEvent d n read) s = .next (State.close s
        { u.withRequest { r with op := some { op with pos := op.pos + 1 } } with
          buffer := { s.buffer with slots := s.buffer.slots.set op.pos (.data found.data.block) } }))
    ∧ (∀ x, sector = some x → op.pos < 23 → n.val = op.pos + 1 → dr.writeFault = false →
      exec (.sectorEvent d n read) s = .next (State.close s
        ((record x).withRequest { r with op := some { op with pos := op.pos + 1 } })))
    ∧ (∀ x, sector = some x → op.pos = 23 → s.onPath0 r → r.kind ≠ .position →
      (op.step = .writeAlternate →
        exec (.sectorEvent d n read) s = .next (State.close s (goes (record x) .checkAlternate (altTrack op.alt))))
      ∧ (op.step = .writeHome →
        exec (.sectorEvent d n read) s = .next (State.close s (goes (record x) .checkHome op.home))))
    ∧ (∀ e, (op.step = .checkAlternate ∧ e = .alternate op.home ∨ op.step = .checkHome ∧ e = .plain stGood) →
      idBad e = none → found.data.good = true → found.data.block = slot.block →
      (op.pos < 23 → n.val = op.pos + 1 →
        exec (.sectorEvent d n read) s = .next (State.close s
          (u.withRequest { r with op := some { op with pos := op.pos + 1 } })))
      ∧ (op.step = .checkAlternate → op.pos = 23 → s.onPath0 r → r.kind ≠ .position →
        exec (.sectorEvent d n read) s = .next (State.close s (goes u .rewriteHome op.home))))
    ∧ (op.step = .checkAlternate → s.onPath0 r → dr.labelUpdate = none → unusable →
      (3 ≤ op.attempt ∨ chooseAlternate retired op.home = none →
        exec (.sectorEvent d n read) s = .next (State.close s
          ((changed u.path0Handed retired).conclude r.rid (Ending.at .ended .spareExhausted (sectorZero op.home)))))
      ∧ (∀ k, op.attempt < 3 → chooseAlternate retired op.home = some k → r.kind ≠ .position →
        exec (.sectorEvent d n read) s = .next (State.close s
          (((changed u.path0Handed retired).withRequest
            { r with
              phase := .idle
              op := some { op with step := .writeAlternate, alt := k, attempt := op.attempt + 1, pos := 0 } }).onDrive d
            fun dr => dr.sentTo (cylOf (altTrack k))))))
    ∧ (op.step = .rewriteHome → op.pos = 23 → s.onPath0 r → dr.labelUpdate = none →
      ∀ x, sector = some x →
      let v := (changed (record x).path0Handed spared).onDrive d fun dr =>
        { dr with suspects := dropSuspect dr.suspects op.sourceTrack }
      let last := min (min (12 * r.round + 11) (r.count - 1)) (op.home * 24 + 23 - blockOf r.addr)
      let done := max r.nextBlock (last + 1)
      let q := { r with
        op := none, state := .positioned, phase := .idle, spared := some op.home, nextBlock := done, blocksDone := done
        writePos := done, retries := 0, checking := false, failed := r.failed.filter fun f => decide (done ≤ f.1) }
      let freed := { v with buffer := { s.buffer with
        holder := none, waiters := s.buffer.waiters.filter fun n => decide (n ≠ r.rid) } }
      let c := cylOf (freed.leg q).track
      (r.kind = .spareTrack →
        exec (.sectorEvent d n read) s = .next (State.close s
          (v.conclude r.rid (Ending.at .done .trackSpared (sectorZero op.home)))))
      ∧ ((r.kind = .writeBlocks ∨ r.kind = .writeAndCheck) → s.buffer.holder = some r.rid → r.label = none →
        r.format = none →
        (done = r.count →
          exec (.sectorEvent d n read) s = .next (State.close s
            ((v.withRequest q).conclude r.rid (Ending.at .done .trackSpared (sectorZero op.home)))))
        ∧ (done < r.count →
          let turns := done = 12 * (r.round + 1)
          exec (.sectorEvent d n read) s = .next (State.close s
            (((if turns then freed.askedOn r else freed).withRequest
              ((if turns then { q.turned with readTimer := none } else q).sentBy dr c)).onDrive d fun dr => dr.sentTo c)))))
    ∧ (op.step = .checkHome → op.pos = 23 → s.onPath0 r → dr.labelUpdate = none →
      idBad (.plain stGood) = none → found.data.good = true → found.data.block = slot.block →
      ∀ k, op.source = some k → cylOf (altTrack k) ≠ dr.curCyl →
      exec (.sectorEvent d n read) s = .next (State.close s
        (((changed u.path0Handed (dropHome es op.home)).withRequest
          { r with phase := .idle, op := some { op with step := .clearAlternate, pos := 0 } }).onDrive d fun dr =>
            { dr with tgtCyl := cylOf (altTrack k), arm := .seeking, seekTimer := some 80000 })))
    ∧ (op.step = .clearAlternate → op.pos = 23 → s.onPath0 r →
      exec (.sectorEvent d n read) s = .next (State.close s
        ((record { id := makeId op.sourceTrack 23 stUnassigned none false, data := zeroData }).path0Handed.conclude
          r.rid (Ending.make .done .none))))

/-- A label as recorded reads back (R15, R16): the three sectors of an image whose fields fit their octets are readable and
give the image. The sector events of a label write (R131): sectors 1, 2 and then 0 are recorded, the three are read back, and
a label that reads back as its image makes the label CURRENT and ends the request DONE; one that does not, at its last
attempt, makes it STALE, posts LABEL_FAULT to all four ports and ends the request ENDED WRITE_CHECK. The last sector of a
load's label read (R24, R25, R116): the map, serial and label state as the label gives them, or empty, absent and STALE with
LABEL_FAULT where it is unreadable, the drive READY, attention PACK_READY set for all four ports, its waiting START DRIVE
requests ended DONE in arrival order; 8 or fewer alternates free in the map as loaded, SPARES_LOW is posted to all four ports
and the check is off, else it is armed (R132). The model's choices: the retry counter returned to 0 with each label sector
(log entry 24), recording at the sector's end with what the heads deliver as operand (log entry 11), where the arm in fact
stands (log entry 12), and the chains behind the ended requests released after the last of them (log entry 43). -/
def Obligations.LabelRoundTrip : Prop :=
  (∀ m : LabelImage, m.serial < 2 ^ 32 → m.generation < 2 ^ 16 → m.entries.length ≤ 128 →
    (∀ e ∈ m.entries, match e with
      | .assign h k _ => h < 8960 ∧ k < 128
      | .retire k => k < 128) →
    noClash m.entries = true →
    let b := labelBlocks m
    b.1.length = 512 ∧ b.2.1.length = 512 ∧ b.2.2.length = 512 ∧ readLabel b.1 b.2.1 b.2.2 = some m)
  ∧ (∀ (d : Drive) (n : Fin 24) (read : SurfaceRead) (s : State) (r : Request) (j : LabelJob), s.onSector d r →
    r.earlyEnded = false → r.op = none → r.label = some j →
    let dr := s.drive d
    let u := s.onDrive d fun dr => { dr with sector := n.val, elapsed := 0 }
    let sec := match j.step with
      | 0 => 1
      | 1 => 2
      | 2 => 0
      | i => i - 3
    let found := dr.found sec read
    let wrote := match j.step with
      | 0 => (labelBlocks j.image).2.1
      | 1 => (labelBlocks j.image).2.2
      | _ => (labelBlocks j.image).1
    let recorded := u.onDrive d fun dr =>
      dr.record (dr.underHeads sec) (overwrite (dr.recorded (dr.underHeads sec)) found wrote)
    let idGood := idCondition found.id dr.curCyl dr.head sec .label = none
    let readGood := readCondition found dr.curCyl dr.head sec .label = none
    let back := j.back ++ [found.data.block]
    let same := readLabel (back.getD 0 []) (back.getD 1 []) (back.getD 2 []) = some j.image
    (j.step = 0 → idGood → n.val = 2 → dr.writeFault = false →
      exec (.sectorEvent d n read) s = .next (State.close s
        (recorded.withRequest { r with label := some { j with step := 1 }, retries := 0 })))
    ∧ ((j.step = 1 ∨ j.step = 2) → idGood → s.onPath0 r →
      exec (.sectorEvent d n read) s = .next (State.close s (recorded.path0Handed.withRequest
        { r with label := some { j with step := j.step + 1 }, retries := 0, state := .positioned, phase := .idle })))
    ∧ ((j.step = 3 ∨ j.step = 4) → readGood → n.val = sec + 1 →
      exec (.sectorEvent d n read) s = .next (State.close s
        (u.withRequest { r with label := some { j with step := j.step + 1, back := back }, retries := 0 })))
    ∧ (j.step = 5 → readGood → same → s.onPath0 r →
      exec (.sectorEvent d n read) s = .next (State.close s ((u.path0Handed.onDrive d fun dr =>
        { dr with map := { dr.map with labelState := .current, generation := j.image.generation } }).conclude r.rid
          (Ending.make .done .none))))
    ∧ (j.step = 5 → readGood → ¬same → s.settings.retryLimit ≤ j.attempt → s.onPath0 r →
      ∃ t : State, exec (.sectorEvent d n read) s = .next (State.close s (t.conclude r.rid
          (Ending.at .ended .writeCheck { cyl := 568, head := 0, sector := 0 })))
        ∧ t = { u.path0Handed.onDrive d fun dr => { dr with map := { dr.map with labelState := .stale } } with
            ports := t.ports }
        ∧ ∀ q : Port, t.port q = (s.port q).posted .labelFault (.drive d) .none))
  ∧ ∀ (d : Drive) (n : Fin 24) (read : SurfaceRead) (s : State), s.powered = true → (s.drive d).motor = .atSpeed →
    (s.drive d).state = .loading → (s.drive d).load.step = .read → (s.drive d).load.passing = true →
    (s.drive d).load.sector = 2 →
    let dr := s.drive d
    let found := dr.found 2 read
    readCondition found dr.curCyl dr.head 2 .label = none →
    let blocks := dr.load.blocks ++ [found.data.block]
    let label := readLabel (blocks.getD 0 []) (blocks.getD 1 []) (blocks.getD 2 [])
    let starts := s.table.filter fun q =>
      decide (q.drive = d) && decide (q.kind = .startDrive) && decide (q.state = .controlWait)
    let ready := fun (serial : Option Nat) (m : MapRec) (dr : DriveRec) =>
      { dr with
        sector := n.val, elapsed := 0, state := .ready, arm := .idle, owner := none, load := LoadRec.initial
        serial := serial, map := m, unit := { dr.unit with attention := Vector.replicate 4 (some .packReady) } }
    (∀ m, label = some m →
      let low := (freeIndices (sortBy MapEntry.key m.entries)).length ≤ 8
      ∃ t, exec (.sectorEvent d n read) s = .next (State.close s
          (State.endTogether t (starts.map (·.rid))))
        ∧ t = { s.onDrive d (ready (some m.serial)
              { entries := sortBy MapEntry.key m.entries, labelState := .current, generation := m.generation
                armed := decide ¬low }) with ports := t.ports }
        ∧ ∀ q : Port, t.port q =
            (if low then (s.port q).posted .sparesLow (.drive d) .none else s.port q).posted .attention (.drive d)
              (.reason .packReady))
    ∧ (label = none →
      ∃ t, exec (.sectorEvent d n read) s = .next (State.close s
          (State.endTogether t (starts.map (·.rid))))
        ∧ t = { s.onDrive d (ready none { entries := [], labelState := .stale, generation := 0, armed := true }) with
            ports := t.ports }
        ∧ ∀ q : Port, t.port q = ((s.port q).posted .labelFault (.drive d) .none).posted .attention (.drive d)
            (.reason .packReady))

/-- A block that a write leg records over a sector whose ID field passes its tests reads back good, with that block,
the void flag off, and every other sector of the pack as it was (R10, R12). -/
def Obligations.WrittenBlockReadsBack : Prop :=
  ∀ (pk : Pack) (n cyl head sector : Nat) (e : Expect) (b : Block), pk.wf = true → n < 218496 →
    idCondition (pk.read n).id cyl head sector e = none →
    let q := pk.write n (overwrite (pk.read n) (pk.read n) b)
    readCondition (q.read n) cyl head sector e = none ∧ (q.read n).data.block = b ∧ (q.read n).id.void = 0
      ∧ (∀ m, m ≠ n → q.read m = pk.read m) ∧ q.wf = true

/-- A suspect table (R147): a raised tally counts up to 15, a track not in the table joins it with tally 1, in a full
table in place of the earliest of those with the least tally, and no other track's tally changes. A block of a data request
that fails, each failure noted with those it has had: a header or data check is retried where the counter is below RETRY_LIMIT
(R139, R140), through a recalibrate at the mid-count, and else ends the request with the block as failing address, or, on a
write leg with AUTO_SPARE on, asks for a sparing of its track (R126); a void sector ends the request at once (R141); a seek
check is retried through a recalibrate and reseek, ends the request SEEK_CHECK with the retries spent, and faults the drive at
the third (R143); a write check of WRITE AND CHECK asks for a sparing at once with AUTO_SPARE on (R126), and with it off is
retried by rewriting, or ends WRITE_CHECK with the retries spent (R142). A block then read good raises the port's recovered count and, where
any failure was no seek check, the tally of its track, and counts at its delivery (R146, R148). What the heads deliver, as
operand, is log entry 11, where the arm in fact stands log entry 12, both the model's choice, and the block a write check
rewrites from log entry 21, the model's reading. -/
def Obligations.SuspectTallies : Prop :=
  (∀ (ss : List Suspect) (t : Nat), (ss.map (·.track)).Nodup → ss.length ≤ 16 →
    let rs := raiseTally ss t
    rs.length ≤ 16 ∧ (rs.map (·.track)).Nodup
      ∧ (t ∈ ss.map (·.track) → tallyOf rs t = min 15 (tallyOf ss t + 1) ∧ ∀ u, u ≠ t → tallyOf rs u = tallyOf ss u)
      ∧ (t ∉ ss.map (·.track) → tallyOf rs t = 1
          ∧ (ss.length < 16 → ∀ u, u ≠ t → tallyOf rs u = tallyOf ss u)
          ∧ (ss.length = 16 → ∃ earlier x later, ss = earlier ++ x :: later ∧ (∀ y ∈ earlier, x.tally < y.tally)
              ∧ (∀ y ∈ later, x.tally ≤ y.tally) ∧ rs = earlier ++ later ++ [{ track := t, tally := 1 }])))
  ∧ (∀ (d : Drive) (n : Fin 24) (read : SurfaceRead) (s : State) (r : Request), s.onSector d r → s.onPath0 r →
    r.earlyEnded = false → r.op = none → r.label = none → r.format = none → r.trial = none → r.kind.isData = true →
    let l := s.leg r
    let dr := s.drive d
    let found := dr.found l.sector read
    let checks := r.kind = .writeAndCheck ∧ r.checking = true
    let writes := r.kind = .writeBlocks ∨ r.kind = .writeAndCheck ∧ r.checking = false
    let c := if writes then idCondition found.id dr.curCyl dr.head l.sector l.expect
      else readCondition found dr.curCyl dr.head l.sector l.expect
    let writeCheck := checks ∧ (c = some .data ∨ c = none ∧ found.data.block ≠ r.blockToWrite)
    let u := (s.onDrive d fun dr => { dr with sector := n.val, elapsed := 0 }).path0Handed
    let limit := s.settings.retryLimit
    let mid := 1 ≤ limit / 2 ∧ r.retries + 1 = limit / 2
    let i := if writes ∧ r.kind = .writeAndCheck then r.writePos else r.nextBlock
    let address := addrOf (blockOf r.addr + i)
    let failed := fun (b : Bool) =>
      if r.failed.any fun f => decide (f.1 = i) then r.failed.map fun f => if f.1 = i then (i, f.2 || b) else f
      else r.failed ++ [(i, b)]
    let noted := fun (b : Bool) => { r with state := .positioned, phase := .idle, failed := failed b }
    let again := fun (b : Bool) => { noted b with retries := r.retries + 1 }
    let restart := fun (q : Request) => if checks then { q with checking := false, writePos := r.nextBlock } else q
    let back := fun (q : Request) => (u.withRequest { q with state := .recalibrating }).onDrive d fun dr =>
      { dr with
        tgtCyl := 0, arm := .recalibrating, recalTimer := some 500000, seekTimer := none, afterHome := .toBlock }
    (c = some .header ∨ (c = some .data ∧ ¬checks) ∨ (writeCheck ∧ s.settings.autoSpare = false) →
      (r.retries < limit → ¬mid →
        exec (.sectorEvent d n read) s = .next (State.close s (u.withRequest (restart (again true)))))
      ∧ (r.retries < limit → mid →
        exec (.sectorEvent d n read) s = .next (State.close s (back (restart (again true)))))
      ∧ (limit ≤ r.retries → ¬(writes ∧ s.settings.autoSpare = true) →
        exec (.sectorEvent d n read) s = .next (State.close s (u.conclude r.rid (Ending.at .ended
          (if c = some .header then .headerCheck else if checks then .writeCheck else .dataCheck) address))))
      ∧ (limit ≤ r.retries → writes → s.settings.autoSpare = true →
        exec (.sectorEvent d n read) s = .next (State.close s (State.askSparing (u.withRequest (noted true)) r.rid))))
    ∧ (writeCheck → s.settings.autoSpare = true →
      exec (.sectorEvent d n read) s = .next (State.close s (State.askSparing (u.withRequest (noted true)) r.rid)))
    ∧ (c = some .void →
      exec (.sectorEvent d n read) s = .next (State.close s (u.conclude r.rid (Ending.at .ended .voidSector address))))
    ∧ (c = some .seek →
      (r.seekChecks < 2 → r.retries < limit → exec (.sectorEvent d n read) s = .next (State.close s
        (back { again false with seekChecks := r.seekChecks + 1 })))
      ∧ (r.seekChecks < 2 → limit ≤ r.retries → exec (.sectorEvent d n read) s = .next (State.close s (u.conclude r.rid
          (Ending.at .ended .seekCheck address))))
      ∧ (2 ≤ r.seekChecks → s.fansPlainly d →
        ∃ t, exec (.sectorEvent d n read) s = .next (State.close s t)
          ∧ (u.withRequest (noted false)).faultedBy t d .repeatedSeekCheck (some (r.port, r.tag)))))
  ∧ ∀ (d : Drive) (n : Fin 24) (read : SurfaceRead) (s : State) (r : Request) (b : Bool), s.onSector d r → r.op = none →
    r.label = none → r.format = none → r.trial = none → r.failed = [(r.nextBlock, b)] → r.kind = .readBlocks →
    let l := s.leg r
    let found := (s.drive d).found l.sector read
    r.current.state = .filling → r.nextBlock + 1 < r.count → r.nextBlock + 1 ≠ 12 * (r.round + 1) →
    (s.leg { r with nextBlock := r.nextBlock + 1 }).track = l.track → (l.sector + 1) % 24 = n.val →
    readCondition found (s.drive d).curCyl (s.drive d).head l.sector l.expect = none →
    exec (.sectorEvent d n read) s = .next (State.close s ((s.onDrive d fun dr =>
        let x := ofPort dr.recCounts r.port
        { dr with
          sector := n.val, elapsed := 0
          recCounts := setOfPort dr.recCounts r.port { x with count := min 255 (x.count + 1) }
          suspects := if b then raiseTally dr.suspects l.track else dr.suspects }).withRequest
      { r.setHalf r.curHalf { r.current with blocks := r.current.blocks ++ [found.data.block] } with
        nextBlock := r.nextBlock + 1, retries := 0, readTimer := none, failed := [], marks := r.marks ++ [r.nextBlock] }))
end

