-- ==== Sys2Proof/Laws/State.lean ====
section
/-! SUPPORT. The laws of the state's records: what each update leaves of each field, by `rfl`, and reading a drive, a port
or an entry by port after a change of one. -/

namespace Sys2Proof.Laws
open Sys2Proof Sys2Proof.Machine

variable {s : State} {d : Drive} {p : Port}

/-! ### One drive changed -/

@[simp] theorem onDrive_powered (f : DriveRec → DriveRec) : (s.onDrive d f).powered = s.powered := rfl
@[simp] theorem onDrive_ports (f : DriveRec → DriveRec) : (s.onDrive d f).ports = s.ports := rfl
@[simp] theorem onDrive_table (f : DriveRec → DriveRec) : (s.onDrive d f).table = s.table := rfl
@[simp] theorem onDrive_nextOrder (f : DriveRec → DriveRec) : (s.onDrive d f).nextOrder = s.nextOrder := rfl
@[simp] theorem onDrive_startList (f : DriveRec → DriveRec) : (s.onDrive d f).startList = s.startList := rfl
@[simp] theorem onDrive_gateOpen (f : DriveRec → DriveRec) : (s.onDrive d f).gateOpen = s.gateOpen := rfl
@[simp] theorem onDrive_gapTimer (f : DriveRec → DriveRec) : (s.onDrive d f).gapTimer = s.gapTimer := rfl
@[simp] theorem onDrive_path0 (f : DriveRec → DriveRec) : (s.onDrive d f).path0 = s.path0 := rfl
@[simp] theorem onDrive_path1 (f : DriveRec → DriveRec) : (s.onDrive d f).path1 = s.path1 := rfl
@[simp] theorem onDrive_preference (f : DriveRec → DriveRec) : (s.onDrive d f).preference = s.preference := rfl
@[simp] theorem onDrive_segments (f : DriveRec → DriveRec) : (s.onDrive d f).segments = s.segments := rfl
@[simp] theorem onDrive_buffer (f : DriveRec → DriveRec) : (s.onDrive d f).buffer = s.buffer := rfl
@[simp] theorem onDrive_windows (f : DriveRec → DriveRec) : (s.onDrive d f).windows = s.windows := rfl
@[simp] theorem onDrive_settings (f : DriveRec → DriveRec) : (s.onDrive d f).settings = s.settings := rfl
@[simp] theorem onDrive_freeCount (f : DriveRec → DriveRec) : (s.onDrive d f).freeCount = s.freeCount := rfl
@[simp] theorem onDrive_pending (f : DriveRec → DriveRec) : (s.onDrive d f).pending = s.pending := rfl
@[simp] theorem onDrive_port (f : DriveRec → DriveRec) (q : Port) : (s.onDrive d f).port q = s.port q := rfl

/-- A changed drive reads as changed. -/
@[simp] theorem drive_onDrive_same (f : DriveRec → DriveRec) : (s.onDrive d f).drive d = f (s.drive d) := by
  simp [State.onDrive, State.drive]

/-- A drive's change leaves every other drive as it was. -/
theorem drive_onDrive_other {e : Drive} (f : DriveRec → DriveRec) (h : e ≠ d) : (s.onDrive d f).drive e = s.drive e := by
  have : d.val ≠ e.val := fun x => h (Fin.ext x.symm)
  simp [State.onDrive, State.drive, this]

/-! ### One port changed -/

@[simp] theorem onPort_powered (f : PortRec → PortRec) : (s.onPort p f).powered = s.powered := rfl
@[simp] theorem onPort_drives (f : PortRec → PortRec) : (s.onPort p f).drives = s.drives := rfl
@[simp] theorem onPort_table (f : PortRec → PortRec) : (s.onPort p f).table = s.table := rfl
@[simp] theorem onPort_nextOrder (f : PortRec → PortRec) : (s.onPort p f).nextOrder = s.nextOrder := rfl
@[simp] theorem onPort_startList (f : PortRec → PortRec) : (s.onPort p f).startList = s.startList := rfl
@[simp] theorem onPort_gateOpen (f : PortRec → PortRec) : (s.onPort p f).gateOpen = s.gateOpen := rfl
@[simp] theorem onPort_gapTimer (f : PortRec → PortRec) : (s.onPort p f).gapTimer = s.gapTimer := rfl
@[simp] theorem onPort_path0 (f : PortRec → PortRec) : (s.onPort p f).path0 = s.path0 := rfl
@[simp] theorem onPort_path1 (f : PortRec → PortRec) : (s.onPort p f).path1 = s.path1 := rfl
@[simp] theorem onPort_preference (f : PortRec → PortRec) : (s.onPort p f).preference = s.preference := rfl
@[simp] theorem onPort_segments (f : PortRec → PortRec) : (s.onPort p f).segments = s.segments := rfl
@[simp] theorem onPort_buffer (f : PortRec → PortRec) : (s.onPort p f).buffer = s.buffer := rfl
@[simp] theorem onPort_windows (f : PortRec → PortRec) : (s.onPort p f).windows = s.windows := rfl
@[simp] theorem onPort_settings (f : PortRec → PortRec) : (s.onPort p f).settings = s.settings := rfl
@[simp] theorem onPort_freeCount (f : PortRec → PortRec) : (s.onPort p f).freeCount = s.freeCount := rfl
@[simp] theorem onPort_pending (f : PortRec → PortRec) : (s.onPort p f).pending = s.pending := rfl
@[simp] theorem onPort_drive (f : PortRec → PortRec) (e : Drive) : (s.onPort p f).drive e = s.drive e := rfl

/-- A port's place names it. -/
theorem portIndex_injective {a b : Port} (h : portIndex a = portIndex b) : a = b := by
  cases a <;> cases b <;> first | rfl | simp [portIndex] at h

/-- A changed port reads as changed. -/
@[simp] theorem port_onPort_same (f : PortRec → PortRec) : (s.onPort p f).port p = f (s.port p) := by
  simp [State.onPort, State.port]

/-- A port's change leaves every other port as it was. -/
theorem port_onPort_other {q : Port} (f : PortRec → PortRec) (h : q ≠ p) : (s.onPort p f).port q = s.port q := by
  have : (portIndex p).val ≠ (portIndex q).val := fun x => h (portIndex_injective (Fin.ext x.symm))
  simp [State.onPort, State.port, this]

/-- An entry by port, replaced, reads as replaced. -/
@[simp] theorem ofPort_setOfPort_same {α : Type} (v : Vector α 4) (x : α) : ofPort (setOfPort v p x) p = x := by
  simp [ofPort, setOfPort]

/-- An entry by port, replaced, leaves every other as it was. -/
theorem ofPort_setOfPort_other {α : Type} {q : Port} (v : Vector α 4) (x : α) (h : q ≠ p) :
    ofPort (setOfPort v p x) q = ofPort v q := by
  have : (portIndex p).val ≠ (portIndex q).val := fun y => h (portIndex_injective (Fin.ext y.symm))
  simp [ofPort, setOfPort, this]

/-! ### A report queued -/

@[simp] theorem queueReport_powered (r : Report) : (s.queueReport p r).powered = s.powered := rfl
@[simp] theorem queueReport_drives (r : Report) : (s.queueReport p r).drives = s.drives := rfl
@[simp] theorem queueReport_table (r : Report) : (s.queueReport p r).table = s.table := rfl
@[simp] theorem queueReport_nextOrder (r : Report) : (s.queueReport p r).nextOrder = s.nextOrder := rfl
@[simp] theorem queueReport_startList (r : Report) : (s.queueReport p r).startList = s.startList := rfl
@[simp] theorem queueReport_gateOpen (r : Report) : (s.queueReport p r).gateOpen = s.gateOpen := rfl
@[simp] theorem queueReport_gapTimer (r : Report) : (s.queueReport p r).gapTimer = s.gapTimer := rfl
@[simp] theorem queueReport_path0 (r : Report) : (s.queueReport p r).path0 = s.path0 := rfl
@[simp] theorem queueReport_path1 (r : Report) : (s.queueReport p r).path1 = s.path1 := rfl
@[simp] theorem queueReport_preference (r : Report) : (s.queueReport p r).preference = s.preference := rfl
@[simp] theorem queueReport_segments (r : Report) : (s.queueReport p r).segments = s.segments := rfl
@[simp] theorem queueReport_buffer (r : Report) : (s.queueReport p r).buffer = s.buffer := rfl
@[simp] theorem queueReport_windows (r : Report) : (s.queueReport p r).windows = s.windows := rfl
@[simp] theorem queueReport_settings (r : Report) : (s.queueReport p r).settings = s.settings := rfl
@[simp] theorem queueReport_freeCount (r : Report) : (s.queueReport p r).freeCount = s.freeCount := rfl
@[simp] theorem queueReport_pending (r : Report) : (s.queueReport p r).pending = s.pending := rfl
@[simp] theorem queueReport_drive (r : Report) (e : Drive) : (s.queueReport p r).drive e = s.drive e := rfl

/-! ### A frame begun -/

/-- The next frame leaves the port's record as it was but for its waiting frames. -/
theorem nextFrame_record {f : OutFrame} {pr : PortRec} (h : s.nextFrame p = some (f, pr)) :
    ∃ w, pr = { s.port p with wanted := w } := by
  simp only [State.nextFrame] at h
  split at h
  · simp only [Option.some.injEq, Prod.mk.injEq] at h
    exact ⟨_, h.2.symm⟩
  · split at h
    · simp only [Option.some.injEq, Prod.mk.injEq] at h
      exact ⟨(s.port p).wanted, h.2.symm⟩
    · split at h
      · cases h
      · cases hf : (s.entriesOf p).findSome? Request.dataIn? with
        | none => simp [hf] at h
        | some f =>
          simp only [hf, Option.map_some, Option.some.injEq, Prod.mk.injEq] at h
          exact ⟨(s.port p).wanted, h.2.symm⟩

/-- Beginning a frame changes at most the port's frames waiting and sent. -/
theorem pump_eq (s : State) (p : Port) :
    s.pump p = s ∨ ∃ (w : List WantedFrame) (x : Option OutFrame),
      s.pump p = s.onPort p fun pr => { pr with wanted := w, sending := x } := by
  simp only [State.pump]
  split
  · split
    · rename_i f pr h
      obtain ⟨w, rfl⟩ := nextFrame_record h
      exact .inr ⟨w, some f, rfl⟩
    · exact .inl rfl
  · exact .inl rfl

@[simp] theorem pump_powered : (s.pump p).powered = s.powered := by
  rcases pump_eq s p with h | ⟨w, x, h⟩
  · rw [h]
  · rw [h]; rfl
@[simp] theorem pump_drives : (s.pump p).drives = s.drives := by
  rcases pump_eq s p with h | ⟨w, x, h⟩
  · rw [h]
  · rw [h]; rfl
@[simp] theorem pump_table : (s.pump p).table = s.table := by
  rcases pump_eq s p with h | ⟨w, x, h⟩
  · rw [h]
  · rw [h]; rfl
@[simp] theorem pump_nextOrder : (s.pump p).nextOrder = s.nextOrder := by
  rcases pump_eq s p with h | ⟨w, x, h⟩
  · rw [h]
  · rw [h]; rfl
@[simp] theorem pump_startList : (s.pump p).startList = s.startList := by
  rcases pump_eq s p with h | ⟨w, x, h⟩
  · rw [h]
  · rw [h]; rfl
@[simp] theorem pump_gateOpen : (s.pump p).gateOpen = s.gateOpen := by
  rcases pump_eq s p with h | ⟨w, x, h⟩
  · rw [h]
  · rw [h]; rfl
@[simp] theorem pump_gapTimer : (s.pump p).gapTimer = s.gapTimer := by
  rcases pump_eq s p with h | ⟨w, x, h⟩
  · rw [h]
  · rw [h]; rfl
@[simp] theorem pump_path0 : (s.pump p).path0 = s.path0 := by
  rcases pump_eq s p with h | ⟨w, x, h⟩
  · rw [h]
  · rw [h]; rfl
@[simp] theorem pump_path1 : (s.pump p).path1 = s.path1 := by
  rcases pump_eq s p with h | ⟨w, x, h⟩
  · rw [h]
  · rw [h]; rfl
@[simp] theorem pump_preference : (s.pump p).preference = s.preference := by
  rcases pump_eq s p with h | ⟨w, x, h⟩
  · rw [h]
  · rw [h]; rfl
@[simp] theorem pump_segments : (s.pump p).segments = s.segments := by
  rcases pump_eq s p with h | ⟨w, x, h⟩
  · rw [h]
  · rw [h]; rfl
@[simp] theorem pump_buffer : (s.pump p).buffer = s.buffer := by
  rcases pump_eq s p with h | ⟨w, x, h⟩
  · rw [h]
  · rw [h]; rfl
@[simp] theorem pump_windows : (s.pump p).windows = s.windows := by
  rcases pump_eq s p with h | ⟨w, x, h⟩
  · rw [h]
  · rw [h]; rfl
@[simp] theorem pump_settings : (s.pump p).settings = s.settings := by
  rcases pump_eq s p with h | ⟨w, x, h⟩
  · rw [h]
  · rw [h]; rfl
@[simp] theorem pump_freeCount : (s.pump p).freeCount = s.freeCount := by
  rcases pump_eq s p with h | ⟨w, x, h⟩
  · rw [h]
  · rw [h]; rfl
@[simp] theorem pump_pending : (s.pump p).pending = s.pending := by
  rcases pump_eq s p with h | ⟨w, x, h⟩
  · rw [h]
  · rw [h]; rfl
@[simp] theorem pump_drive (e : Drive) : (s.pump p).drive e = s.drive e := by
  rcases pump_eq s p with h | ⟨w, x, h⟩
  · rw [h]
  · rw [h]; rfl

end Sys2Proof.Laws
end

