-- ==== Sys2Proof/Laws/Settle.lean ====
section
/-! SUPPORT. What follows in an event: nothing from a quiet state; the end of an event touches the frames alone; requests
found after a change. -/

namespace Sys2Proof.Laws
open Sys2Proof Sys2Proof.Machine

variable {s t : State} {d : Drive} {p : Port}

/-! ### Changes composed -/

theorem onDrive_onDrive (f g : DriveRec → DriveRec) :
    (s.onDrive d f).onDrive d g = s.onDrive d fun dr => g (f dr) := by
  simp [State.onDrive, State.drive]

theorem onPort_onPort (f g : PortRec → PortRec) : (s.onPort p f).onPort p g = s.onPort p fun pr => g (f pr) := by
  simp [State.onPort, State.port]

theorem onPort_congr {f g : PortRec → PortRec} (h : f (s.port p) = g (s.port p)) : s.onPort p f = s.onPort p g := by
  simp only [State.onPort, h]

theorem onDrive_congr {f g : DriveRec → DriveRec} (h : f (s.drive d) = g (s.drive d)) : s.onDrive d f = s.onDrive d g := by
  simp only [State.onDrive, h]

theorem onPort_id {f : PortRec → PortRec} (h : f (s.port p) = s.port p) : s.onPort p f = s := by
  unfold State.onPort
  rw [h]
  simp [State.port]

theorem onDrive_id {f : DriveRec → DriveRec} (h : f (s.drive d) = s.drive d) : s.onDrive d f = s := by
  unfold State.onDrive
  rw [h]
  simp [State.drive]

/-- Two states with the same ports, port by port, have the same ports. -/
theorem ports_ext (h : ∀ p : Port, s.port p = t.port p) : s.ports = t.ports := by
  apply Vector.ext
  intro i hi
  match i, hi with
  | 0, _ => exact h .A
  | 1, _ => exact h .B
  | 2, _ => exact h .C
  | 3, _ => exact h .D

/-- Two states with the same drives, drive by drive, have the same drives. -/
theorem drives_ext (h : ∀ d : Drive, s.drive d = t.drive d) : s.drives = t.drives := by
  apply Vector.ext
  intro i hi
  exact h ⟨i, hi⟩

/-! ### Quiet states -/

theorem grantBuffer?_none (h : s.buffer.waiters = []) : s.grantBuffer? = none := by
  simp only [State.grantBuffer?, h]
  split <;> simp_all

theorem settleSync?_none (h : s.settled = []) (os : SyncOutcomes) : s.settleSync? os = none := by
  simp [State.settleSync?, h]

theorem decision?_none (h : (s.drive d).armFree = true → s.queue d = []) : s.decision? d = none := by
  simp only [State.decision?]
  split
  · rename_i hf
    simp [h hf, State.choose, leastBy]
  · rfl

theorem firstDecision_none (h : ∀ d : Drive, (s.drive d).armFree = true → s.queue d = []) (ds : List Drive) :
    s.firstDecision ds = none := by
  induction ds with
  | nil => rfl
  | cons d ds ih => simp [State.firstDecision, decision?_none (h d), ih]

theorem nextDecision_none (h : ∀ d : Drive, (s.drive d).armFree = true → s.queue d = []) (q : TestPlan) :
    s.nextDecision q = none := by
  simp [State.nextDecision, firstDecision_none h]

/-- A decision found is one that its drive's test makes, and the drives ahead of it in the order have none to make. -/
theorem firstDecision_some {ds rest : List Drive} {r : Request} (h : s.firstDecision ds = some (d, r, rest)) :
    s.decision? d = some r ∧ ∃ ahead, ds = ahead ++ d :: rest ∧ ∀ e ∈ ahead, s.decision? e = none := by
  induction ds with
  | nil => simp [State.firstDecision] at h
  | cons e ds ih =>
    simp only [State.firstDecision] at h
    split at h
    · rename_i q hq
      simp only [Option.some.injEq, Prod.mk.injEq] at h
      obtain ⟨rfl, rfl, rfl⟩ := h
      exact ⟨hq, [], rfl, by simp⟩
    · rename_i hq
      obtain ⟨hd, ahead, rfl, ha⟩ := ih h
      exact ⟨hd, e :: ahead, rfl, by simpa [hq] using ha⟩

/-- The order stands as drawn up while nothing further is offered (R91). -/
theorem testOrder_standing {q : TestPlan} (h : q.due = false) : s.testOrder q = q.order := by
  simp [State.testOrder, h]

/-- Nothing follows from a quiet state. -/
theorem settleWith_quiet (h : s.quiet) (q : TestPlan) : s.settleWith q = s := by
  have : s.settleStep [] q = none := by
    simp [State.settleStep, grantBuffer?_none h.1.1, settleSync?_none h.1.2.1, nextDecision_none h.1.2.2, h.2]
  simp [State.settleWith, State.settleBy, this]

theorem settle_quiet (h : t.quiet) : s.settle t = t := settleWith_quiet h _

theorem close_quiet (h : t.quiet) : s.close t = t.flush := by simp [State.close, settle_quiet h]

/-- A port's record before the event has no part in what follows in it. -/
theorem close_onPort (f : PortRec → PortRec) : (s.onPort p f).close t = s.close t := rfl

/-- A request that joins a busy drive's queue changes nothing more. -/
theorem testAfterJoin_busy (h : (s.drive d).armFree = false) : s.testAfterJoin d = s := by
  simp [State.testAfterJoin, State.decision?, h]

/-- A state that differs from an idle one in nothing that waits is idle. -/
theorem idle_of (h : s.idle) (hb : t.buffer.waiters = s.buffer.waiters) (hs : t.settled = s.settled)
    (hd : ∀ d : Drive, (t.drive d).armFree = true → (s.drive d).armFree = true ∧ t.queue d = s.queue d) : t.idle := by
  refine ⟨hb.trans h.1, hs.trans h.2.1, fun d hf => ?_⟩
  rw [(hd d hf).2]
  exact h.2.2 d (hd d hf).1

/-- No start can begin from an empty start list. -/
theorem startable_nil (h : s.startList = []) : s.startable = none := by
  simp [State.startable, h]

/-! ### Requests found -/

@[simp] theorem request?_onPort (f : PortRec → PortRec) (n : Nat) : (s.onPort p f).request? n = s.request? n := rfl

/-- A drive's change that leaves its label update leaves every request found as before. -/
theorem request?_onDrive {f : DriveRec → DriveRec} (h : (f (s.drive d)).labelUpdate = (s.drive d).labelUpdate) (n : Nat) :
    (s.onDrive d f).request? n = s.request? n := by
  have : ∀ e : Drive, ((s.onDrive d f).drive e).labelUpdate = (s.drive e).labelUpdate := by
    intro e
    by_cases he : e = d
    · subst he; simpa using h
    · rw [drive_onDrive_other f he]
  simp only [State.request?, onDrive_table, this]

/-- A request of the table is found under its place. -/
theorem request?_entry {r : Request} (h : s.entry r) : s.request? r.rid = some r := by
  obtain ⟨hm, hu, _⟩ := h
  cases hf : s.table.find? (·.rid = r.rid) with
  | none =>
    have := List.find?_eq_none.1 hf r hm
    simp at this
  | some q =>
    have hq := hu q (List.mem_of_find?_eq_some hf) (by simpa using List.find?_some hf)
    subst hq
    simp [State.request?, hf]

/-- A request replaced is found as replaced. -/
theorem request?_withRequest {r : Request} {n : Nat} (h : ∃ q ∈ s.table, q.rid = r.rid) (hn : n = r.rid) :
    (s.withRequest r).request? n = some r := by
  subst hn
  obtain ⟨q, hq, hqr⟩ := h
  have : (s.table.map fun q => if q.rid = r.rid then r else q).find? (·.rid = r.rid) = some r := by
    generalize s.table = l at hq
    induction l with
    | nil => simp at hq
    | cons a l ih =>
      by_cases ha : a.rid = r.rid
      · simp [ha]
      · simp only [List.map_cons, ha, if_false, List.find?_cons, decide_false]
        exact ih (by rcases List.mem_cons.1 hq with rfl | h; exacts [absurd hqr ha, h])
  simp [State.request?, State.withRequest, this]

theorem putRequest_table {r : Request} (h : r.kind ≠ .labelUpdate) : s.putRequest r = s.withRequest r := by
  simp [State.putRequest, h, State.withRequest]

theorem onRequest_some {r : Request} {n : Nat} (h : s.request? n = some r) (f : Request → Request) :
    s.onRequest n f = s.putRequest (f r) := by
  simp [State.onRequest, h]

/-- A request replaced by one of its place twice is replaced once. -/
theorem withRequest_withRequest {r q : Request} (h : r.rid = q.rid) : (s.withRequest r).withRequest q = s.withRequest q := by
  simp only [State.withRequest, List.map_map]
  congr 1
  apply List.map_congr_left
  intro x _
  simp only [Function.comp]
  by_cases hx : x.rid = q.rid
  · simp [hx, h]
  · simp [h, hx]

@[simp] theorem withRequest_drive (r : Request) (e : Drive) : (s.withRequest r).drive e = s.drive e := rfl
@[simp] theorem withRequest_port (r : Request) (q : Port) : (s.withRequest r).port q = s.port q := rfl

/-! ### Notices -/

theorem postInto_ne_nil (ns : List Notice) (k : NoticeKind) (sub : Subject) (det : NoticeDetails) :
    postInto ns k sub det ≠ [] := by
  simp only [postInto]
  split
  · rename_i h
    cases ns
    · simp at h
    · simp
  · simp

/-- A posting leaves the port as `posted` gives. -/
theorem post_eq (k : NoticeKind) (sub : Subject) (det : NoticeDetails) :
    s.post p k sub det = s.onPort p fun pr => pr.posted k sub det := by
  have := postInto_ne_nil (s.port p).notices k sub det
  apply onPort_congr
  simp [PortRec.withLine, PortRec.posted, this]

/-- A posting to all four ports leaves each as `posted` gives (R164). -/
theorem postAll_eq (k : NoticeKind) :
    s.postAll k d = { s with ports := s.ports.map fun pr => pr.posted k (.drive d) .none } := by
  have ports : (s.postAll k d).ports = s.ports.map fun pr => pr.posted k (.drive d) .none := by
    apply Vector.ext
    intro i hi
    simp only [State.postAll, forPorts, allPorts, List.foldl, post_eq, State.onPort, State.port, portIndex]
    match i, hi with
    | 0, _ | 1, _ | 2, _ | 3, _ => simp
  rw [← ports]
  rfl

/-- The spares-low check leaves the state that `sparesWarned` gives (R132). -/
theorem checkSpares_eq : s.checkSpares d = s.sparesWarned d := by
  simp only [State.checkSpares, State.sparesWarned, postAll_eq]
  rfl

/-! ### The end of an event -/

theorem sameButFrames_refl : s.sameButFrames s := ⟨rfl, fun p => ⟨(s.port p).wanted, (s.port p).sending, rfl⟩⟩

theorem sameButFrames_trans {u : State} (h : s.sameButFrames t) (h' : t.sameButFrames u) : s.sameButFrames u := by
  refine ⟨?_, fun p => ?_⟩
  · rw [h'.1, h.1]
  · obtain ⟨w, x, hw⟩ := h.2 p
    obtain ⟨w', x', hw'⟩ := h'.2 p
    exact ⟨w', x', by rw [hw', hw]⟩

theorem sameButFrames_onPort (w : PortRec → List WantedFrame) (x : PortRec → Option OutFrame) :
    s.sameButFrames (s.onPort p fun pr => { pr with wanted := w pr, sending := x pr }) := by
  refine ⟨rfl, fun q => ?_⟩
  by_cases hq : q = p
  · subst hq; exact ⟨w (s.port q), x (s.port q), by simp⟩
  · exact ⟨(s.port q).wanted, (s.port q).sending, by rw [port_onPort_other _ hq]⟩

theorem pump_sameButFrames : s.sameButFrames (s.pump p) := by
  rcases pump_eq s p with h | ⟨w, x, h⟩
  · rw [h]; exact sameButFrames_refl
  · rw [h]; exact sameButFrames_onPort (fun _ => w) (fun _ => x)

/-- Frames withdrawn are the only change of a withdrawal. -/
theorem withdrawWanted_sameButFrames : s.sameButFrames s.withdrawWanted := by
  have key : ∀ (ps : List Port) (u : State) (f : State → PortRec → List WantedFrame),
      u.sameButFrames (ps.foldl (fun s p => s.onPort p fun pr => { pr with wanted := f s pr }) u) := by
    intro ps
    induction ps with
    | nil => intro u f; exact sameButFrames_refl
    | cons p ps ih =>
      intro u f
      exact sameButFrames_trans (sameButFrames_onPort (f u) (fun pr => pr.sending)) (ih _ f)
  exact key allPorts s fun s pr => pr.wanted.filter fun w =>
        match s.table.find? (·.rid = w.rid) with
        | some r => !r.detached && r.held.isNone
        | none => false

/-- The end of an event changes at most the frames the ports have waiting and are sending. -/
theorem flush_sameButFrames : s.sameButFrames s.flush := by
  have key : ∀ (ps : List Port) (u : State), u.sameButFrames (ps.foldl State.pump u) := by
    intro ps
    induction ps with
    | nil => intro u; exact sameButFrames_refl
    | cons p ps ih => intro u; exact sameButFrames_trans pump_sameButFrames (ih _)
  exact sameButFrames_trans withdrawWanted_sameButFrames (key allPorts _)

end Sys2Proof.Laws
end

