-- ==== Sys2Proof/Laws/Arrival.lean ====
section
/-! SUPPORT. Arrivals (R44, R47): what a request frame that meets the premises of `Safety` comes to. -/

namespace Sys2Proof.Laws
open Sys2Proof Sys2Proof.Machine

variable {s : State} {p : Port} {d : Drive} {k : Kind} {f : RequestFrame} {o : Operands}

theorem live_powered {t : State} (h : s.powered = true) : s.live t = .next t := by simp [State.live, h]

theorem unitDrive?_names (h : s.names p f d) : s.unitDrive? p f = some d := by
  simp [State.unitDrive?, h.1, h.2]

/-- A request that names its drive and passes checks 1 to 7 meets the drive's checks alone. -/
theorem arrival_reaches {acc : State → Drive → Operands → State} (h : s.reaches k p f d o) (hu : k.carriesUnit = true) :
    s.arrival p k f acc = match s.driveChecks p d k f o with
      | some x => s.deny p k.code (some k) f x
      | none => acc s d o := by
  obtain ⟨⟨⟨_, hon, hroom, htag⟩, hf, hs⟩, hn, hm, ht⟩ := h
  have h5 : ¬(needsStrap k f o = true ∧ (s.port p).maintStrap = false) := by
    rintro ⟨a, b⟩
    rw [hs a] at b
    cases b
  have h7 : ¬(k.tableEntry = true ∧ takesNoEntry k o (s.predecessor? p k) = false ∧ s.tableIsFull p = true) := by
    rintro ⟨a, b, c⟩
    rw [ht a b] at c
    cases c
  have hc : s.checks p k f = match s.driveChecks p d k f o with
      | some x => .error x
      | none => .ok (d, o) := by
    simp only [State.checks, htag, hu, unitDrive?_names hn, hf, h5, h7]
    have h6 : ∀ m, s.predecessor? p k = some m → m.drive = d := fun m e => hm m (by simp [e])
    cases hp : s.predecessor? p k with
    | none => cases hx : s.driveChecks p d k f o <;> simp [hx]
    | some m => cases hx : s.driveChecks p d k f o <;> simp [hx, h6 m hp]
  simp only [State.arrival, hon, hroom, hc]
  cases s.driveChecks p d k f o <;> rfl

/-- A request that names no drive and passes checks 1 to 5 is carried out. -/
theorem arrival_admits {acc : State → Drive → Operands → State} (h : s.admits k p f o) (hu : k.carriesUnit = false)
    (he : k.tableEntry = false) : s.arrival p k f acc = acc s 0 o := by
  obtain ⟨⟨_, hon, hroom, htag⟩, hf, hs⟩ := h
  have h5 : ¬(needsStrap k f o = true ∧ (s.port p).maintStrap = false) := by
    rintro ⟨a, b⟩
    rw [hs a] at b
    cases b
  simp [State.arrival, hon, hroom, State.checks, htag, hu, hf, h5, State.predecessor?, he]

/-- The operands an accepted frame gives are those its octets spell. -/
theorem operands?_of_checkFields (h : checkFields k f = .ok o) : operands? k f = some o := by
  simp only [checkFields] at h
  split at h
  · cases h
  · revert h
    cases hx : operands? k f with
    | none => intro h; cases h
    | some x =>
      cases x
      case data a n =>
        intro h
        by_cases h1 : addressValid a = false
        · simp [h1] at h
        · by_cases h2 : extentValid f.raw a n = false
          · simp [h1, h2] at h
          · simp only [h1, h2] at h
            cases h
            rfl
      all_goals
        intro h
        cases h
        rfl

theorem admits_powered (h : s.admits k p f o) : s.powered = true := h.1.1
theorem reaches_powered (h : s.reaches k p f d o) : s.powered = true := h.1.1.1

/-- Windows match no request of another kind (R173). -/
theorem matching_unwindowed {a : Action} {e : Option (Nat × Nat)} (h : k.windowed = false) : s.matching a p d k e = [] := by
  have hm : ∀ w : Window, w.match p d k e = none := by
    intro w
    simp [Window.match, h]
  simp only [State.matching, List.filterMap_eq_nil_iff]
  intro i _
  cases s.windows[i] with
  | none => rfl
  | some w => simp [hm w]

/-- A request that passes every check of a READY drive meets no denial. -/
theorem driveChecks_passes (h : s.passes k p f d o) (hc : k ≠ .clearFault) : s.driveChecks p d k f o = none := by
  obtain ⟨_, hr, ⟨hown, ha, hd⟩, hw, hwin, hm⟩ := h
  have hfilter : (s.drive d).unit.owner.filter (· != p) = none := by
    rcases hown with h | h <;> simp [h]
  have hm' : ¬(k = .formatTrack ∧ trackInMap (s.drive d).map.entries (trackOf o.addr.cyl o.addr.head) = true) := by
    rintro ⟨a, b⟩
    rw [hm a] at b
    cases b
  have hw' : ¬(k.writeClass = true ∧ (s.drive d).writeProtect = true) := by
    rintro ⟨a, b⟩
    rw [hw a] at b
    cases b
  simp [State.driveChecks, hr, hfilter, ha, hd, hw', hwin, hm', hc]

/-- A request that uses no drive meets no drive check. -/
theorem driveChecks_unused (h1 : k.driveUsing = false) (h2 : k.windowed = false) (h3 : k.writeClass = false)
    (h4 : k ≠ .formatTrack) (h5 : k ≠ .clearFault) : s.driveChecks p d k f o = none := by
  simp [State.driveChecks, h1, h3, h4, h5, State.stoppingWindows, matching_unwindowed h2]

/-- RESERVE and SEIZE of a READY drive that is clear for the port meet no drive check. -/
theorem driveChecks_ready (hr : (s.drive d).state = .ready)
    (ho : k = .seize ∨ (s.drive d).unit.owner = none ∨ (s.drive d).unit.owner = some p)
    (ha : ofPort (s.drive d).unit.attention p = none) (hd : ofPort (s.drive d).deferred p = none)
    (h2 : k.windowed = false) (h3 : k.writeClass = false) (h4 : k ≠ .formatTrack) (h5 : k ≠ .clearFault) :
    s.driveChecks p d k f o = none := by
  have hf : (if k.driveUsing = true ∧ k ≠ .seize then (s.drive d).unit.owner.filter (· != p) else none) = none := by
    rcases ho with ho | ho | ho <;> simp [ho]
  simp [State.driveChecks, hr, hf, ha, hd, h3, h4, h5, State.stoppingWindows, matching_unwindowed h2]

end Sys2Proof.Laws
end

