-- ==== Sys2Proof/Laws/Ending.lean ====
section
/-! SUPPORT. What leaving the table does (R63 step 4): a path released and handed on (R96), segments freed (R100), the
buffer, the arm and the entry returned. -/

namespace Sys2Proof.Laws
open Sys2Proof Sys2Proof.Machine

/-- What the preference rule leaves a path handed on as (R96). -/
def handed (l : List Nat) : PathState := match l with | x :: _ => .reserved x | [] => .free

theorem handed_holds {l : List Nat} {n : Nat} (h : n ∉ l) : (handed l).holds n = false := by
  cases l with
  | nil => rfl
  | cons x l => simp only [List.mem_cons, not_or] at h; simp [handed, PathState.holds, Ne.symm h.1]

theorem handOn0_eq (s : State) : s.handOn0 = { s with path0 := handed s.preference, preference := s.preference.tail } := by
  cases h : s.preference <;> simp [State.handOn0, h, handed]
theorem handOn1_eq (s : State) : s.handOn1 = { s with path1 := handed s.preference, preference := s.preference.tail } := by
  cases h : s.preference <;> simp [State.handOn1, h, handed]

theorem releasePath_eq (s : State) (n : Nat) : ∃ a b l, s.releasePath n = { s with path0 := a, path1 := b, preference := l }
   ∧ (s.path0.holds n = false → a = s.path0) ∧ (s.path1.holds n = false → b = s.path1)
   ∧ (s.path0.holds n = true → a = handed s.preference)
   ∧ (s.path0.holds n = false → s.path1.holds n = true → b = handed s.preference)
   ∧ (n ∉ s.preference → a.holds n = false ∧ b.holds n = false ∧ n ∉ l)
   ∧ (s.path0.holds n = false → s.path1.holds n = false → l = s.preference) := by
  have ht : ∀ l : List Nat, n ∉ l → n ∉ l.tail := fun l h hh => h (List.mem_of_mem_tail hh)
  cases h0 : s.path0.holds n <;> cases h1 : s.path1.holds n
  · exact ⟨s.path0, s.path1, s.preference, by simp [State.releasePath, h0, h1], fun _ => rfl, fun _ => rfl, nofun, nofun, fun h => ⟨h0, h1, h⟩, fun _ _ => rfl⟩
  · refine ⟨s.path0, handed s.preference, s.preference.tail, by simp [State.releasePath, h0, h1, handOn1_eq], fun _ => rfl, nofun, nofun, fun _ _ => rfl, fun h => ⟨h0, handed_holds h, ht _ h⟩, nofun⟩
  · refine ⟨handed s.preference, s.path1, s.preference.tail, by simp [State.releasePath, h0, h1, handOn0_eq], nofun, fun _ => rfl, fun _ => rfl, nofun, fun h => ⟨handed_holds h, h1, ht _ h⟩, nofun⟩
  · refine ⟨handed s.preference, handed s.preference.tail, s.preference.tail.tail, by simp [State.releasePath, h0, h1, handOn0_eq, handOn1_eq], nofun, nofun, fun _ => rfl, nofun, fun h => ⟨handed_holds h, handed_holds (ht _ h), ht _ (ht _ h)⟩, nofun⟩

theorem setSegment_get (s : State) (i j : Fin 8) (h : Option Nat) : (s.setSegment i h).segments[j] = if j = i then h else s.segments[j] := by
  by_cases hi : j = i
  · subst hi; simp [State.setSegment]
  · have : i.val ≠ j.val := fun x => hi (Fin.ext x.symm)
    simp [State.setSegment, hi, this]

theorem freeSegmentsOf_eq (s : State) (n : Nat) : ∃ v, s.freeSegmentsOf n = { s with segments := v } ∧ ∀ i : Fin 8, v[i] = if s.segments[i] = some n then none else s.segments[i] := by
  have key : ∀ (l : List (Fin 8)) (s : State), ∃ v, l.foldl (fun s i => if s.segments[i] = some n then s.setSegment i none else s) s = { s with segments := v }
     ∧ ∀ i : Fin 8, v[i] = if i ∈ l ∧ s.segments[i] = some n then none else s.segments[i] := by
    intro l
    induction l with
    | nil => intro s; exact ⟨s.segments, rfl, by simp⟩
    | cons a l ih =>
      intro s
      obtain ⟨v, h1, h2⟩ := ih (if s.segments[a] = some n then s.setSegment a none else s)
      refine ⟨v, ?_, ?_⟩
      · rw [List.foldl_cons, h1]; split <;> rfl
      · intro i
        rw [h2]
        by_cases ha : s.segments[a] = some n
        · rw [if_pos ha, setSegment_get]
          by_cases hi : i = a
          · subst hi
            rw [if_pos rfl]
            simp only [List.mem_cons, true_or, true_and, ha, if_true]
            simp
          · simp only [hi, if_false, List.mem_cons, false_or]
        · rw [if_neg ha]
          by_cases hi : i = a
          · subst hi
            simp only [ha, and_false, if_false]
          · simp only [List.mem_cons, hi, false_or]
  obtain ⟨v, h1, h2⟩ := key allDrives s
  refine ⟨v, h1, fun i => ?_⟩
  rw [h2]
  have : i ∈ allDrives := by revert i; decide
  simp only [this, true_and]

theorem leaveTable_eq {s : State} {r : Request} (hr : s.request? r.rid = some r) (hk : r.kind ≠ .labelUpdate) (hf : r.failure = none) :
    ∃ a b l v, s.leaveTable r.rid = { (s.onDrive r.drive fun dr => if dr.owner = some r.rid then dr.loseOwner else dr) with
       table := s.table.filter (·.rid != r.rid), path0 := a, path1 := b, preference := l, segments := v
       buffer := { s.buffer with holder := if s.buffer.holder = some r.rid then none else s.buffer.holder, waiters := s.buffer.waiters.filter (· != r.rid) } }
      ∧ (∀ i : Fin 8, v[i] = if s.segments[i] = some r.rid then none else s.segments[i])
      ∧ a.holds r.rid = false ∧ b.holds r.rid = false ∧ r.rid ∉ l
      ∧ (s.path0.holds r.rid = false → a = s.path0) ∧ (s.path1.holds r.rid = false → b = s.path1)
      ∧ (s.path0.holds r.rid = true → a = handed (s.preference.filter (· != r.rid)))
      ∧ (s.path0.holds r.rid = false → s.path1.holds r.rid = true → b = handed (s.preference.filter (· != r.rid)))
      ∧ (s.path0.holds r.rid = false → s.path1.holds r.rid = false → l = s.preference.filter (· != r.rid)) := by
  obtain ⟨a, b, l, h1, h2, h3, h4, h5, h6, h7⟩ := releasePath_eq { s with preference := s.preference.filter (· != r.rid) } r.rid
  obtain ⟨v, hv, hv'⟩ := freeSegmentsOf_eq (s.leavePaths r.rid) r.rid
  have hl : s.leavePaths r.rid = { s with path0 := a, path1 := b, preference := l } := h1
  have h6' := h6 (by simp)
  refine ⟨a, b, l, v, ?_, ?_, h6'.1, h6'.2.1, h6'.2.2, h2, h3, h4, h5, h7⟩
  · have hdrv : ∀ u : State, u.drives = s.drives → (if (u.drive r.drive).owner = some r.rid then u.onDrive r.drive DriveRec.loseOwner else u)
        = u.onDrive r.drive fun dr => if dr.owner = some r.rid then dr.loseOwner else dr := by
      intro u hu
      by_cases ho : (u.drive r.drive).owner = some r.rid
      · rw [if_pos ho]; apply onDrive_congr; simp [ho]
      · rw [if_neg ho, onDrive_id]; simp [ho]
    have h0 : s.leaveTable r.rid = (let s := ((s.leavePaths r.rid).freeSegmentsOf r.rid).leaveBuffer r.rid
       let s := if (s.drive r.drive).owner = some r.rid then s.onDrive r.drive DriveRec.loseOwner else s
       { s with table := s.table.filter (·.rid != r.rid) }) := by
      simp only [State.leaveTable, hr, hf, hk, if_false]
    rw [h0]
    simp only
    rw [hdrv _ (by rw [hv, hl]; rfl), hv, hl]
    rfl
  · intro i
    rw [hv', hl]

theorem successor_none {s : State} {n : Nat} (h : ∀ q ∈ s.table, q.pred ≠ some n) : s.successor? n = none := by
  simp only [State.successor?, List.find?_eq_none]
  intro q hq
  simp [h q hq]

theorem releaseChain_none {s : State} {n : Nat} (h : ∀ q ∈ s.table, q.pred ≠ some n) (m : Nat) : s.releaseChain m n = s := by
  cases m <;> simp [State.releaseChain, successor_none h]
theorem breakChain_none {s : State} {n : Nat} (h : ∀ q ∈ s.table, q.pred ≠ some n) (m : Nat) : s.breakChain m n = s := by
  cases m <;> simp [State.breakChain, successor_none h]

/-- A request that nothing else names leaves the table and changes nothing else. -/
theorem leaveTable_unnamed {s : State} {r : Request} (hr : s.request? r.rid = some r) (hk : r.kind ≠ .labelUpdate)
    (hf : r.failure = none) (hn : s.unnamed r.rid) :
    s.leaveTable r.rid = { s with table := s.table.filter (·.rid != r.rid) } := by
  obtain ⟨_, n1, n2, n3, n4, n5, n6, n7⟩ := hn
  obtain ⟨a, b, l, v, hl, k1, _, _, _, k5, k6, _, _, k9⟩ := leaveTable_eq hr hk hf
  have hpref : s.preference.filter (· != r.rid) = s.preference := by
    rw [List.filter_eq_self]
    intro a ha
    simp only [bne_iff_ne]
    rintro rfl
    exact n4 ha
  have hw : s.buffer.waiters.filter (· != r.rid) = s.buffer.waiters := by
    rw [List.filter_eq_self]
    intro a ha
    simp only [bne_iff_ne]
    rintro rfl
    exact n7 ha
  have e3 : v = s.segments := by
    apply Vector.ext
    intro i hi
    have := k1 ⟨i, hi⟩
    rw [if_neg (n5 ⟨i, hi⟩)] at this
    exact this
  rw [hl, onDrive_id (by rw [if_neg (n1 r.drive).1]), k5 n2, k6 n3, (k9 n2 n3).trans hpref, e3, if_neg n6, hw]

end Sys2Proof.Laws
end

