-- ==== Sys2Proof/Laws/Conclude.lean ====
section
/-! SUPPORT. What ending a plain request comes to (R63), and what emptying a wanted set does (R157). -/

namespace Sys2Proof.Laws
open Sys2Proof Sys2Proof.Machine

/-- With no report-after window met, the window step of an ending clears the mark of a request that was arm owner (R175). -/
theorem reportAfter_plain {s : State} {r : Request} (hm : r.reachedArm = true → s.matching .reportAfter r.port r.drive r.kind r.extent = [])
   (hr : s.request? r.rid = some r) (hk : r.kind ≠ .labelUpdate) :
   s.reportAfter r = if r.reachedArm then s.withRequest { r with windowMatch := none } else s := by
  simp only [State.reportAfter]
  split
  · rename_i h
    rw [hm h]
    simp [onRequest_some hr, putRequest_table, hk]
  · rfl

/-- Replacing a record leaves the rest of the table as it was. -/
theorem filter_map_rid {l : List Request} {r : Request} : (l.map fun q => if q.rid = r.rid then r else q).filter (·.rid != r.rid) = l.filter (·.rid != r.rid) := by
  induction l with
  | nil => rfl
  | cons a l ih => by_cases h : a.rid = r.rid <;> simp [h, ih]

/-- The state with a plain request's ending reported (R63 steps 1 and 2, R55, R56). -/
def reported (s : State) (r : Request) (e : Ending) : State :=
  let s := s.onPort r.port fun pr =>
    { pr with
      reports := pr.reports ++ [endingReport s r e .none]
      marker := pr.marker.map fun m => if m.member = some r.rid then { m with standing := if e.cls = .done then .endedDone else .endedOther } else m }
  if r.reachedArm then s.withRequest { r with windowMatch := none } else s

/-- A record replaced by one with the same chain link brings no new successor. -/
theorem table_pred {s : State} {r q : Request} {n : Nat} (h : ∀ q ∈ s.table, q.pred ≠ some n) (hq : q ∈ s.table) (hp : r.pred = q.pred) :
   ∀ x ∈ (s.withRequest r).table, x.pred ≠ some n := by
  intro x hx
  simp only [State.withRequest, List.mem_map] at hx
  obtain ⟨y, hy, rfl⟩ := hx
  split
  · rw [hp]; exact h q hq
  · exact h y hy

/-- Reporting an ending brings no new successor. -/
theorem reported_pred {s : State} {r : Request} {e : Ending} {n : Nat} (h : ∀ q ∈ s.table, q.pred ≠ some n) (hr : r ∈ s.table) :
    ∀ x ∈ (reported s r e).table, x.pred ≠ some n := by
  simp only [reported]
  split
  · exact table_pred (s := s.onPort r.port _) h (q := r) hr rfl
  · exact h

/-- The ending of a plain request (R63): its report and its marker's standing, then all it held given back. -/
theorem conclude_plain {s : State} {r : Request} {e : Ending} (h : s.plain r) : s.conclude r.rid e = (reported s r e).leaveTable r.rid := by
  have hr := request?_entry h.1
  obtain ⟨⟨hmem, hu, hk⟩, he, hd, hf, hp, hm⟩ := h
  have hra : ∀ x, ((s.reportEnding r e .none).reportAfter r).markStanding r.port r.rid x = 
      if r.reachedArm then ((s.reportEnding r e .none).markStanding r.port r.rid x).withRequest { r with windowMatch := none } else (s.reportEnding r e .none).markStanding r.port r.rid x := by
    intro x
    rw [reportAfter_plain (s := s.reportEnding r e .none) hm (by exact hr) hk]
    split <;> rfl
  have hrep : ∀ x, x = (if e.cls = .done then Standing.endedDone else .endedOther) → ((s.reportEnding r e .none).reportAfter r).markStanding r.port r.rid x = reported s r e := by
    intro x hx
    rw [hra, reported]
    simp only [State.markStanding, State.reportEnding, State.queueReport, onPort_onPort, hx]
  simp only [State.conclude, hr, he, hd, hk]
  by_cases hc : e.cls = .done
  · simp only [hc]
    simp only [Bool.false_eq_true, or_self, if_false, if_true, State.endDone, State.reportDone]
    rw [hrep _ (by simp [hc])]
    simp only [State.releaseBehind]
    obtain ⟨a, b, l, v, hl, _⟩ := leaveTable_eq (s := reported s r e) (r := if r.reachedArm then { r with windowMatch := none } else r) (by
      simp only [reported]
      split
      · exact request?_withRequest (s := s.onPort r.port _) ⟨r, hmem, rfl⟩ rfl
      · exact hr) (by split <;> exact hk) (by split <;> exact hf)
    have hrid : (if r.reachedArm then { r with windowMatch := none } else r).rid = r.rid := by split <;> rfl
    rw [hrid] at hl
    rw [releaseChain_none]
    rw [hl]
    intro q hq
    exact reported_pred hp hmem q (List.mem_filter.1 hq).1
  · simp only [hc]
    simp only [Bool.false_eq_true, or_self, if_false, State.endBroken]
    rw [hrep _ (by simp [hc]), breakChain_none (reported_pred hp hmem)]

/-- The wanted ports of a drive told DRIVE_FREE and the set emptied (R157): what changes in all. -/
theorem freeWanted_eq {s : State} {d : Drive} : ∃ t : State, s.freeWanted d = t ∧
    t = { s.onDrive d (fun dr => { dr with unit := { dr.unit with wanted := Vector.replicate 4 false } }) with ports := t.ports }
    ∧ ∀ q, t.port q = if ofPort (s.drive d).unit.wanted q then (s.port q).posted .driveFree (.drive d) .none else s.port q := by
  refine ⟨_, rfl, ?_, ?_⟩
  · simp only [State.freeWanted, forPorts, allPorts, List.foldl]
    cases ofPort (s.drive d).unit.wanted .A <;> cases ofPort (s.drive d).unit.wanted .B <;>
    cases ofPort (s.drive d).unit.wanted .C <;> cases ofPort (s.drive d).unit.wanted .D <;> rfl
  · intro q
    simp only [State.freeWanted, forPorts, allPorts, List.foldl, onDrive_port, post_eq]
    cases h0 : ofPort (s.drive d).unit.wanted .A <;> cases h1 : ofPort (s.drive d).unit.wanted .B <;>
    cases h2 : ofPort (s.drive d).unit.wanted .C <;> cases h3 : ofPort (s.drive d).unit.wanted .D <;> cases q <;>
    simp [h0, h1, h2, h3, port_onPort_other]

end Sys2Proof.Laws
end

