-- ==== Sys2Proof/Laws/Pack.lean ====
section
/-! SUPPORT. The laws of a pack's sectors: reading after recording, recording elsewhere, and the canonical form kept. -/

namespace Sys2Proof.Laws
open Sys2Proof Sys2Proof.Machine

/-- A list in canonical form from a number lists nothing below it. -/
theorem lookupSector_below {lo n : Nat} {xs : List (Nat × Sector)} (h : canonicalFrom lo xs = true) (hn : n < lo) :
    lookupSector n xs = factorySector n := by
  induction xs generalizing lo with
  | nil => rfl
  | cons x xs ih =>
    simp [canonicalFrom] at h
    have : x.1 ≠ n := by omega
    simp [lookupSector, this]
    exact ih h.2 (by omega)

/-- A recorded sector reads back as recorded. -/
theorem lookupSector_recordSector_same {lo n : Nat} {x : Sector} {xs : List (Nat × Sector)}
    (h : canonicalFrom lo xs = true) : lookupSector n (recordSector n x xs) = x := by
  induction xs generalizing lo with
  | nil =>
    unfold recordSector
    split
    · next hx => simpa [lookupSector] using hx.symm
    · simp [lookupSector]
  | cons y ys ih =>
    simp [canonicalFrom] at h
    unfold recordSector
    split
    · have : y.1 ≠ n := by omega
      simp [lookupSector, this]
      exact ih h.2
    · split
      · next heq =>
        split
        · next hx =>
          rw [hx]
          exact lookupSector_below h.2 (by omega)
        · simp [lookupSector]
      · split
        · next hx =>
          have hne : y.1 ≠ n := by assumption
          simp [lookupSector, hne]
          rw [hx]
          exact lookupSector_below h.2 (by omega)
        · simp [lookupSector]

/-- Recording a sector leaves every other sector as it was. -/
theorem lookupSector_recordSector_other {lo n m : Nat} {x : Sector} {xs : List (Nat × Sector)}
    (h : canonicalFrom lo xs = true) (hm : m ≠ n) : lookupSector m (recordSector n x xs) = lookupSector m xs := by
  induction xs generalizing lo with
  | nil =>
    unfold recordSector
    split
    · rfl
    · have : ¬ n = m := fun e => hm e.symm
      simp [lookupSector, this]
  | cons y ys ih =>
    simp [canonicalFrom] at h
    have hnm : ¬ n = m := fun e => hm e.symm
    unfold recordSector
    split
    · simp [lookupSector]
      split
      · rfl
      · exact ih h.2
    · split
      · next heq =>
        have hy : ¬ y.1 = m := by omega
        split <;> simp [lookupSector, hy, hnm]
      · split <;> simp [lookupSector, hnm]

/-- Recording a sector of the pack keeps the canonical form. -/
theorem canonicalFrom_recordSector {lo n : Nat} {x : Sector} {xs : List (Nat × Sector)}
    (h : canonicalFrom lo xs = true) (hlo : lo ≤ n) (hn : n < 218496) :
    canonicalFrom lo (recordSector n x xs) = true := by
  induction xs generalizing lo with
  | nil =>
    unfold recordSector
    split
    · rfl
    · next hx => simp [canonicalFrom, hlo, hn, hx]
  | cons y ys ih =>
    simp [canonicalFrom] at h
    unfold recordSector
    split
    · next hlt =>
      simp [canonicalFrom, h.1]
      exact ih h.2 (by omega)
    · split
      · next heq =>
        split
        · cases ys with
          | nil => rfl
          | cons z zs =>
            have := h.2
            simp [canonicalFrom] at this ⊢
            refine ⟨⟨⟨by omega, ?_⟩, ?_⟩, ?_⟩ <;> simp_all
        · next hx =>
          subst heq
          simp [canonicalFrom, hlo, hn, hx, h.2]
      · split
        · simp [canonicalFrom, h.1, h.2]
        · next hx =>
          simp [canonicalFrom, hlo, hn, hx, h.1, h.2]
          omega

/-- What `Pack.write` does: the sector recorded, every other sector as it was, the canonical form kept. -/
theorem Pack_write_spec {p : Pack} {n : Nat} {x : Sector} (h : p.wf = true) :
    (p.write n x).read n = x ∧ (∀ m, m ≠ n → (p.write n x).read m = p.read m)
      ∧ (n < 218496 → (p.write n x).wf = true) :=
  ⟨lookupSector_recordSector_same h, fun _ hm => lookupSector_recordSector_other h hm,
    fun hn => canonicalFrom_recordSector h (Nat.zero_le n) hn⟩

end Sys2Proof.Laws
end

