-- ==== Sys2Proof/Laws/PerInstr.lean ====
section
/-! SUPPORT. For every command: what its well-formedness says of the request frame and the packs it carries. -/

namespace Sys2Proof.Laws

/-- The request frame a command carries. -/
def frame? : Instr → Option RequestFrame
  | .readBlocks _ f | .writeBlocks _ f | .writeAndCheck _ f | .checkBlocks _ f
  | .position _ f | .recalibrate _ f | .spareTrack _ f | .returnAlternate _ f
  | .formatTrack _ f | .writeLabel _ f | .startDrive _ f | .stopDrive _ f
  | .clearFault _ f | .synchronize _ f | .reserve _ f | .release _ f
  | .seize _ f | .readStatus _ f | .readFaultRecord _ f | .readSpareMap _ f
  | .collectNotices _ f | .testNotice _ f | .cancel _ f | .setWindow _ f
  | .clearWindow _ f | .readWindows _ f | .setSettings _ f | .readSettings _ f
  | .readIdentity _ f | .stringReset _ f _ | .kindInvalidRequest _ _ f => some f
  | .powerOn _ | .badFrame _ _ | .dataOut _ _ _ _ | .linkReset _ | .linkSignalLoss _
  | .linkSignalAppears _ | .holdLineChange _ _ | .dataInSent _ | .dataWantedSent _ | .reportSent _
  | .dataWaitExpiry _ _ _ | .readTimerExpiry _ _ | .spindleSensed _ _ | .atSpeed _ | .spinTimeout _
  | .startGapExpiry | .atRest _ | .onCylinder _ _ | .seekTimerExpiry _ | .homeEvent _
  | .recalibrateTimerExpiry _ | .sectorEvent _ _ _ | .doorOpened _ | .packRemoved _ | .doorClosed _
  | .packSeated _ _ | .writeFaultRaised _ | .writeFaultDropped _ | .writeProtectChange _ _ | .powerLoss => none

/-- The packs a spindle's levels carry. -/
def SpindleSense.packs (x : SpindleSense) : List Pack :=
  match x.pack with
  | .seated q => [q]
  | _ => []

/-- The packs a command carries: those sensed at power-on, at a string reset, at a spindle, and one put on. -/
def packs : Instr → List Pack
  | .powerOn x => x.spindles.toList.flatMap SpindleSense.packs
  | .stringReset _ _ cables => cables.toList.flatMap SpindleSense.packs
  | .spindleSensed _ x => SpindleSense.packs x
  | .packSeated _ q => [q]
  | .readBlocks _ _ | .writeBlocks _ _ | .writeAndCheck _ _ | .checkBlocks _ _ | .position _ _
  | .recalibrate _ _ | .spareTrack _ _ | .returnAlternate _ _ | .formatTrack _ _ | .writeLabel _ _
  | .startDrive _ _ | .stopDrive _ _ | .clearFault _ _ | .synchronize _ _ | .reserve _ _
  | .release _ _ | .seize _ _ | .readStatus _ _ | .readFaultRecord _ _ | .readSpareMap _ _
  | .collectNotices _ _ | .testNotice _ _ | .cancel _ _ | .setWindow _ _ | .clearWindow _ _
  | .readWindows _ _ | .setSettings _ _ | .readSettings _ _ | .readIdentity _ _ | .badFrame _ _
  | .dataOut _ _ _ _ | .linkReset _ | .linkSignalLoss _ | .linkSignalAppears _ | .holdLineChange _ _
  | .dataInSent _ | .dataWantedSent _ | .reportSent _ | .dataWaitExpiry _ _ _ | .readTimerExpiry _ _
  | .atSpeed _ | .spinTimeout _ | .startGapExpiry | .atRest _ | .onCylinder _ _
  | .seekTimerExpiry _ | .homeEvent _ | .recalibrateTimerExpiry _ | .sectorEvent _ _ _ | .doorOpened _
  | .packRemoved _ | .doorClosed _ | .writeFaultRaised _ | .writeFaultDropped _ | .writeProtectChange _ _
  | .powerLoss | .kindInvalidRequest _ _ _ => []

/-- A well-formed command carries a frame the link can carry, and packs in canonical form. -/
def Valid.Statement (c : Instr) : Prop :=
  c.wellFormed = true → (∀ f, frame? c = some f → f.params.length ≤ 255) ∧ ∀ q ∈ packs c, q.wf = true

/-- A pack of valid spindle levels is in canonical form. -/
theorem wf_of_mem_packs {x : SpindleSense} (h : x.valid = true) {q : Pack} (hq : q ∈ SpindleSense.packs x) :
    q.wf = true := by
  unfold SpindleSense.packs at hq
  unfold SpindleSense.valid at h
  split at hq
  · simp_all [Pack.valid]
  · simp at hq

/-- The packs of eight valid spindle levels are in canonical form. -/
theorem wf_of_mem_cables {xs : Vector SpindleSense 8} (h : xs.all SpindleSense.valid = true) {q : Pack}
    (hq : q ∈ xs.toList.flatMap SpindleSense.packs) : q.wf = true := by
  obtain ⟨x, hx, hq⟩ := List.mem_flatMap.mp hq
  exact wf_of_mem_packs (Vector.all_eq_true_iff_forall_mem.mp h x (by simpa using hx)) hq

/-- A request without packs. -/
theorem valid_of_frame {c : Instr} {g : RequestFrame} (hw : c.wellFormed = true → g.valid = true)
    (hf : frame? c = some g) (hp : packs c = []) : Valid.Statement c := fun h =>
  ⟨fun f e => by
    obtain rfl : g = f := by simpa [hf] using e
    simpa [RequestFrame.valid] using hw h, by simp [hp]⟩

/-- An event without frame and packs. -/
theorem valid_of_none {c : Instr} (hf : frame? c = none) (hp : packs c = []) : Valid.Statement c := fun _ =>
  ⟨by simp [hf], by simp [hp]⟩

theorem Valid.powerOn (x : PowerOnSense) : Valid.Statement (.powerOn x) := fun h =>
  ⟨by simp [frame?], fun _ hq => wf_of_mem_cables h hq⟩
theorem Valid.readBlocks (p : Port) (f : RequestFrame) : Valid.Statement (.readBlocks p f) := valid_of_frame id rfl rfl
theorem Valid.writeBlocks (p : Port) (f : RequestFrame) : Valid.Statement (.writeBlocks p f) :=
  valid_of_frame id rfl rfl
theorem Valid.writeAndCheck (p : Port) (f : RequestFrame) : Valid.Statement (.writeAndCheck p f) :=
  valid_of_frame id rfl rfl
theorem Valid.checkBlocks (p : Port) (f : RequestFrame) : Valid.Statement (.checkBlocks p f) :=
  valid_of_frame id rfl rfl
theorem Valid.position (p : Port) (f : RequestFrame) : Valid.Statement (.position p f) := valid_of_frame id rfl rfl
theorem Valid.recalibrate (p : Port) (f : RequestFrame) : Valid.Statement (.recalibrate p f) :=
  valid_of_frame id rfl rfl
theorem Valid.spareTrack (p : Port) (f : RequestFrame) : Valid.Statement (.spareTrack p f) := valid_of_frame id rfl rfl
theorem Valid.returnAlternate (p : Port) (f : RequestFrame) : Valid.Statement (.returnAlternate p f) :=
  valid_of_frame id rfl rfl
theorem Valid.formatTrack (p : Port) (f : RequestFrame) : Valid.Statement (.formatTrack p f) :=
  valid_of_frame id rfl rfl
theorem Valid.writeLabel (p : Port) (f : RequestFrame) : Valid.Statement (.writeLabel p f) := valid_of_frame id rfl rfl
theorem Valid.startDrive (p : Port) (f : RequestFrame) : Valid.Statement (.startDrive p f) := valid_of_frame id rfl rfl
theorem Valid.stopDrive (p : Port) (f : RequestFrame) : Valid.Statement (.stopDrive p f) := valid_of_frame id rfl rfl
theorem Valid.clearFault (p : Port) (f : RequestFrame) : Valid.Statement (.clearFault p f) := valid_of_frame id rfl rfl
theorem Valid.synchronize (p : Port) (f : RequestFrame) : Valid.Statement (.synchronize p f) :=
  valid_of_frame id rfl rfl
theorem Valid.reserve (p : Port) (f : RequestFrame) : Valid.Statement (.reserve p f) := valid_of_frame id rfl rfl
theorem Valid.release (p : Port) (f : RequestFrame) : Valid.Statement (.release p f) := valid_of_frame id rfl rfl
theorem Valid.seize (p : Port) (f : RequestFrame) : Valid.Statement (.seize p f) := valid_of_frame id rfl rfl
theorem Valid.readStatus (p : Port) (f : RequestFrame) : Valid.Statement (.readStatus p f) := valid_of_frame id rfl rfl
theorem Valid.readFaultRecord (p : Port) (f : RequestFrame) : Valid.Statement (.readFaultRecord p f) :=
  valid_of_frame id rfl rfl
theorem Valid.readSpareMap (p : Port) (f : RequestFrame) : Valid.Statement (.readSpareMap p f) :=
  valid_of_frame id rfl rfl
theorem Valid.collectNotices (p : Port) (f : RequestFrame) : Valid.Statement (.collectNotices p f) :=
  valid_of_frame id rfl rfl
theorem Valid.testNotice (p : Port) (f : RequestFrame) : Valid.Statement (.testNotice p f) := valid_of_frame id rfl rfl
theorem Valid.cancel (p : Port) (f : RequestFrame) : Valid.Statement (.cancel p f) := valid_of_frame id rfl rfl
theorem Valid.setWindow (p : Port) (f : RequestFrame) : Valid.Statement (.setWindow p f) := valid_of_frame id rfl rfl
theorem Valid.clearWindow (p : Port) (f : RequestFrame) : Valid.Statement (.clearWindow p f) :=
  valid_of_frame id rfl rfl
theorem Valid.readWindows (p : Port) (f : RequestFrame) : Valid.Statement (.readWindows p f) :=
  valid_of_frame id rfl rfl
theorem Valid.setSettings (p : Port) (f : RequestFrame) : Valid.Statement (.setSettings p f) :=
  valid_of_frame id rfl rfl
theorem Valid.readSettings (p : Port) (f : RequestFrame) : Valid.Statement (.readSettings p f) :=
  valid_of_frame id rfl rfl
theorem Valid.readIdentity (p : Port) (f : RequestFrame) : Valid.Statement (.readIdentity p f) :=
  valid_of_frame id rfl rfl
theorem Valid.stringReset (p : Port) (f : RequestFrame) (cables : Vector SpindleSense 8) :
    Valid.Statement (.stringReset p f cables) := fun h => by
  have h := Bool.and_eq_true_iff.mp h
  refine ⟨fun g e => ?_, fun _ hq => wf_of_mem_cables h.2 hq⟩
  obtain rfl : f = g := by simpa [frame?] using e
  simpa [RequestFrame.valid] using h.1
theorem Valid.badFrame (p : Port) (octets : List Octet) : Valid.Statement (.badFrame p octets) := valid_of_none rfl rfl
theorem Valid.dataOut (p : Port) (tag : Octet) (index : Word16) (block : Block) : Valid.Statement (.dataOut p tag index block) :=
  valid_of_none rfl rfl
theorem Valid.linkReset (p : Port) : Valid.Statement (.linkReset p) := valid_of_none rfl rfl
theorem Valid.linkSignalLoss (p : Port) : Valid.Statement (.linkSignalLoss p) := valid_of_none rfl rfl
theorem Valid.linkSignalAppears (p : Port) : Valid.Statement (.linkSignalAppears p) := valid_of_none rfl rfl
theorem Valid.holdLineChange (p : Port) (raised : Bool) : Valid.Statement (.holdLineChange p raised) :=
  valid_of_none rfl rfl
theorem Valid.dataInSent (p : Port) : Valid.Statement (.dataInSent p) := valid_of_none rfl rfl
theorem Valid.dataWantedSent (p : Port) : Valid.Statement (.dataWantedSent p) := valid_of_none rfl rfl
theorem Valid.reportSent (p : Port) : Valid.Statement (.reportSent p) := valid_of_none rfl rfl
theorem Valid.dataWaitExpiry (p : Port) (tag : Fin 16) (half : Fin 2) : Valid.Statement (.dataWaitExpiry p tag half) :=
  valid_of_none rfl rfl
theorem Valid.readTimerExpiry (p : Port) (tag : Fin 16) : Valid.Statement (.readTimerExpiry p tag) :=
  valid_of_none rfl rfl
theorem Valid.spindleSensed (d : Drive) (x : SpindleSense) : Valid.Statement (.spindleSensed d x) := fun h =>
  ⟨by simp [frame?], fun _ hq => wf_of_mem_packs (Bool.and_eq_true_iff.mp h).2 hq⟩
theorem Valid.atSpeed (d : Drive) : Valid.Statement (.atSpeed d) := valid_of_none rfl rfl
theorem Valid.spinTimeout (d : Drive) : Valid.Statement (.spinTimeout d) := valid_of_none rfl rfl
theorem Valid.startGapExpiry : Valid.Statement (.startGapExpiry) := valid_of_none rfl rfl
theorem Valid.atRest (d : Drive) : Valid.Statement (.atRest d) := valid_of_none rfl rfl
theorem Valid.onCylinder (d : Drive) (settled : Nat) : Valid.Statement (.onCylinder d settled) := valid_of_none rfl rfl
theorem Valid.seekTimerExpiry (d : Drive) : Valid.Statement (.seekTimerExpiry d) := valid_of_none rfl rfl
theorem Valid.homeEvent (d : Drive) : Valid.Statement (.homeEvent d) := valid_of_none rfl rfl
theorem Valid.recalibrateTimerExpiry (d : Drive) : Valid.Statement (.recalibrateTimerExpiry d) := valid_of_none rfl rfl
theorem Valid.sectorEvent (d : Drive) (n : Fin 24) (read : SurfaceRead) : Valid.Statement (.sectorEvent d n read) :=
  valid_of_none rfl rfl
theorem Valid.doorOpened (d : Drive) : Valid.Statement (.doorOpened d) := valid_of_none rfl rfl
theorem Valid.packRemoved (d : Drive) : Valid.Statement (.packRemoved d) := valid_of_none rfl rfl
theorem Valid.doorClosed (d : Drive) : Valid.Statement (.doorClosed d) := valid_of_none rfl rfl
theorem Valid.packSeated (d : Drive) (q : Pack) : Valid.Statement (.packSeated d q) := fun h =>
  ⟨by simp [frame?], fun y hy => by
    obtain rfl : y = q := by simpa [packs] using hy
    exact (Bool.and_eq_true_iff.mp h).1⟩
theorem Valid.writeFaultRaised (d : Drive) : Valid.Statement (.writeFaultRaised d) := valid_of_none rfl rfl
theorem Valid.writeFaultDropped (d : Drive) : Valid.Statement (.writeFaultDropped d) := valid_of_none rfl rfl
theorem Valid.writeProtectChange (d : Drive) (isProtected : Bool) : Valid.Statement (.writeProtectChange d isProtected) :=
  valid_of_none rfl rfl
theorem Valid.powerLoss : Valid.Statement (.powerLoss) := valid_of_none rfl rfl
theorem Valid.kindInvalidRequest (p : Port) (code : Octet) (f : RequestFrame) :
    Valid.Statement (.kindInvalidRequest p code f) :=
  valid_of_frame (fun h => (Bool.and_eq_true_iff.mp h).1) rfl rfl

end Sys2Proof.Laws
end

