-- ==== Sys2Proof/Laws/Quiet.lean ====
section
/-! SUPPORT. What keeps a state idle or quiet: a request dropped, a record replaced. -/

namespace Sys2Proof.Laws
open Sys2Proof Sys2Proof.Machine

/-- Dropping a request that no SYNCHRONIZE awaits settles none (R153). -/
theorem settled_filter {s t : State} {r : Request} (ht : t.table = s.table.filter (·.rid != r.rid)) (hs : s.settled = []) (hr : ∀ q ∈ s.table, q.rid = r.rid → q = r)
    (he : r.earlyEffective = false) : t.settled = [] := by
  simp only [State.settled, List.filter_eq_nil_iff, ht, List.mem_filter] at hs ⊢
  rintro q ⟨hq, _⟩ 
  have := hs q hq
  have ha : t.awaited q = s.awaited q := by
    simp only [State.awaited, ht, List.filter_filter]
    apply List.filter_congr
    intro x hx
    by_cases hxr : x.rid = r.rid
    · have := hr x hx hxr
      subst this
      simp [he]
    · simp [hxr]
  rw [ha]
  exact this

/-- Dropping a request from the table leaves an empty queue empty. -/
theorem queue_filter {s t : State} {r : Request} {d : Drive} (ht : t.table = s.table.filter (·.rid != r.rid)) (hl : (t.drive d).labelUpdate = (s.drive d).labelUpdate) (hs : s.queue d = []) : t.queue d = [] := by
  have hb : ∀ (x : Request) l, insertBy (fun r => r.rid) x l ≠ [] := by
    intro x l; cases l <;> simp [insertBy]; split <;> simp
  simp only [State.queue, hl] at hs ⊢
  have : ∀ l : List Request, (s.table.filter fun r => decide (r.drive = d) && decide (r.state = .queued)) = [] → (t.table.filter fun r => decide (r.drive = d) && decide (r.state = .queued)) = [] := by
    intro _ h
    rw [List.filter_eq_nil_iff] at h ⊢
    intro a ha
    rw [ht] at ha
    exact h a (List.mem_filter.1 ha).1
  split at hs
  · split at hs
    · exact absurd hs (hb _ _)
    · rename_i h; rw [if_neg h]; exact this [] hs
  · exact this [] hs

/-- The start that may begin depends on the gate, the list and the drives' states, packs and doors alone (R21). -/
theorem startable_congr {s t : State} (h1 : t.gateOpen = s.gateOpen) (h2 : t.startList = s.startList) (h3 : ∀ d, (t.drive d).state = (s.drive d).state ∧ (t.drive d).packSeated = (s.drive d).packSeated ∧ (t.drive d).doorClosed = (s.drive d).doorClosed) : t.startable = s.startable := by
  simp only [State.startable, h1, h2]
  have : (fun d => decide ((t.drive d).state = .starting)) = (fun d => decide ((s.drive d).state = .starting)) := by
    funext d; rw [(h3 d).1]
  rw [this]
  have : (fun d => decide ((t.drive d).state = .stopped) && (t.drive d).packSeated && (t.drive d).doorClosed) = (fun d => decide ((s.drive d).state = .stopped) && (s.drive d).packSeated && (s.drive d).doorClosed) := by
    funext d; rw [(h3 d).1, (h3 d).2.1, (h3 d).2.2]
  rw [this]

/-- Replacing the record of a request that is not queued, its place, kind, drive, port and early end kept, leaves the
state idle. -/
theorem idle_withRequest {s : State} {r q : Request} (h : s.idle) (he : s.entry r) (hid : q.rid = r.rid) (hk : q.kind = r.kind) (hd : q.drive = r.drive) (hp : q.port = r.port)
    (hee : q.earlyEffective = r.earlyEffective)
    (h1 : r.state ≠ .queued) (h2 : q.state ≠ .queued) (h3 : q.state = .controlWait → r.state = .controlWait) : (s.withRequest q).idle := by
  have hmap : ∀ P : Request → Bool, (P r = P q) → (P q = false) → (s.withRequest q).table.filter P = s.table.filter P := by
    intro P h1 h2
    simp only [State.withRequest, List.filter_map]
    have : ∀ x ∈ s.table, (P ∘ fun x => if x.rid = q.rid then q else x) x = P x := by
      intro x hx
      simp only [Function.comp]
      split
      · rename_i hx'
        rw [he.2.1 x hx (hx'.trans hid), h1]
      · rfl
    rw [List.filter_congr this]
    conv_rhs => rw [← List.map_id (List.filter P s.table)]
    apply List.map_congr_left
    intro x hx
    split
    · rename_i hx'
      have := he.2.1 x (List.mem_filter.1 hx).1 (hx'.trans hid)
      have hP := (List.mem_filter.1 hx).2
      rw [this, h1, h2] at hP
      cases hP
    · rfl
  have hq : ∀ d, (s.withRequest q).queue d = s.queue d := by
    intro d
    simp only [State.queue, withRequest_drive]
    rw [hmap _ (by simp [h1, h2]) (by simp [h2])]
  have haw : ∀ x, (s.withRequest q).awaited x = [] ↔ s.awaited x = [] := by
    intro x
    have hPq : ((decide (q.port = x.port) && decide (q.drive = x.drive) && decide (q.rid < x.rid) && q.kind.writeClass && q.kind.isData && q.earlyEffective) = (decide (r.port = x.port) && decide (r.drive = x.drive) && decide (r.rid < x.rid) && r.kind.writeClass && r.kind.isData && r.earlyEffective)) := by
      rw [hp, hd, hid, hk, hee]
    simp only [State.awaited, List.filter_eq_nil_iff]
    constructor
    · intro h a ha
      by_cases har : a.rid = r.rid
      · have := he.2.1 a ha har
        subst this
        rw [← hPq]
        refine h q ?_
        simp only [State.withRequest, List.mem_map]
        exact ⟨a, ha, by simp [hid]⟩
      · refine h a ?_
        simp only [State.withRequest, List.mem_map]
        exact ⟨a, ha, by rw [hid, if_neg har]⟩
    · intro h a ha
      simp only [State.withRequest, List.mem_map] at ha
      obtain ⟨y, hy, rfl⟩ := ha
      split
      · rw [hPq]; exact h r he.1
      · exact h y hy
  refine ⟨h.1, ?_, fun d hf => ?_⟩
  · have := h.2.1
    simp only [State.settled, List.filter_eq_nil_iff] at this ⊢
    intro x hx
    simp only [State.withRequest, List.mem_map] at hx
    obtain ⟨y, hy, rfl⟩ := hx
    split
    · have hr := this r he.1
      intro hc
      apply hr
      simp only [Bool.and_eq_true, decide_eq_true_eq, List.isEmpty_iff] at hc ⊢
      have e : s.awaited q = s.awaited r := by
        simp only [State.awaited, hp, hd, hid]
      exact ⟨⟨hk ▸ hc.1.1, h3 hc.1.2⟩, e ▸ (haw q).1 hc.2⟩
    · have hr := this y hy
      intro hc
      apply hr
      simp only [Bool.and_eq_true, decide_eq_true_eq, List.isEmpty_iff] at hc ⊢
      exact ⟨hc.1, (haw y).1 hc.2⟩
  · rw [hq d]
    exact h.2.2 d hf

/-- Replacing the record of a request that is not queued leaves the state quiet. -/
theorem quiet_withRequest {s : State} {r q : Request} (h : s.quiet) (he : s.entry r) (hid : q.rid = r.rid) (hk : q.kind = r.kind) (hd : q.drive = r.drive) (hp : q.port = r.port)
    (hee : q.earlyEffective = r.earlyEffective)
    (h1 : r.state ≠ .queued) (h2 : q.state ≠ .queued) (h3 : q.state = .controlWait → r.state = .controlWait) : (s.withRequest q).quiet :=
  ⟨idle_withRequest h.1 he hid hk hd hp hee h1 h2 h3, h.2⟩

/-- A request found by its tag stands in the table for that port and is not detached (R51, R72). -/
theorem entry_tagged {s : State} {p : Port} {n : Nat} {r : Request} (h : s.tagged? p n = some r) : r ∈ s.table ∧ r.port = p ∧ r.detached = false := by
  simp only [State.tagged?] at h
  have h1 := List.mem_of_find?_eq_some h
  have h2 := List.find?_some h
  simp [Request.outstanding] at h2
  exact ⟨h1, h2.1.1, h2.2⟩

end Sys2Proof.Laws
end

