-- ==== Sys2Proof/Laws/Settings.lean ====
section
/-! SUPPORT. What putting settings does (R68, R69). -/

namespace Sys2Proof.Laws
open Sys2Proof Sys2Proof.Machine

/-- A settings item whose switch value is 0 or 1 and whose unit is DATA_WAIT's alone (R68). -/
def okItem (x : SettingItem) : Prop := (x.setting.isSwitch = true → x.value ≤ 1) ∧ (x.unit.isSome = decide (x.setting = .dataWait))

/-- Taking a value keeps the item's form and its setting (R68). -/
theorem taken_ok {x : SettingItem} (h : okItem x) : okItem x.taken ∧ x.taken.setting = x.setting := by
  rcases x with ⟨t, v, u⟩
  cases t <;> simp_all [okItem, SettingItem.taken, Setting.isSwitch]

/-- A setting put takes its value in the settings list, every other keeps its own (R69). -/
theorem put_settings {p : Port} {s : State} {x : SettingItem} (h : okItem x) :
    (State.putSetting p s x).settingsOf p = (s.settingsOf p).map fun y => if y.setting = x.setting then x else y := by
  rcases x with ⟨t, v, u⟩
  obtain ⟨h1, h2⟩ := h
  have hv : ∀ v : Nat, v ≤ 1 → switchValue (decide (v = 1)) = v := by
    intro v hv; rcases v with _ | _ | v <;> first | rfl | omega
  cases t <;> simp [Setting.isSwitch] at h1 h2
  case dataWait => 
    cases u with
    | none => simp at h2
    | some u => simp [State.putSetting, State.settingsOf, PortRec.withLine]
  all_goals subst h2
  all_goals simp [State.putSetting, State.settingsOf, PortRec.withLine, hv, h1, State.port, State.onPort]

/-- A setting put changes nothing but settings and the notice line (R69, R165). -/
theorem put_frame {p : Port} {s : State} {x : SettingItem} : ∃ g l c, State.putSetting p s x = { s.onPort p (fun pr => { pr with settings := c, noticeLine := l }) with settings := g }
   ∧ ((s.port p).lineHolds → l = (!(s.port p).notices.isEmpty && c.noticeLineEnable)) := by
  rcases x with ⟨t, v, u⟩
  have e : ∀ g : StringSettings, ∃ g' l c, ({ s with settings := g } : State) = { s.onPort p (fun pr => { pr with settings := c, noticeLine := l }) with settings := g' }
    ∧ ((s.port p).lineHolds → l = (!(s.port p).notices.isEmpty && c.noticeLineEnable)) := by
    intro g
    refine ⟨g, (s.port p).noticeLine, (s.port p).settings, ?_, fun h => h⟩
    rw [onPort_id]; rfl
  have e' : ∀ g : PortSettings → PortSettings, ∃ g' l c, s.onPort p (fun pr => PortRec.withLine { pr with settings := g pr.settings }) = { s.onPort p (fun pr => { pr with settings := c, noticeLine := l }) with settings := g' }
    ∧ ((s.port p).lineHolds → l = (!(s.port p).notices.isEmpty && c.noticeLineEnable)) := by
    intro g
    exact ⟨s.settings, _, g (s.port p).settings, rfl, fun _ => rfl⟩
  cases t
  · exact e _
  · exact e _
  · exact e _
  · exact e _
  · exact e _
  · exact e' fun c => { c with unitBase := v }
  · exact e' fun c => { c with earlyEndPermitted := decide (v = 1) }
  · exact e' fun c => { c with noticeLineEnable := decide (v = 1) }
  · exact e' fun c => { c with waitFactor := v, waitUnit := u.getD c.waitUnit }

/-- Settings put one after another change nothing but settings and the notice line. -/
theorem fold_frame {p : Port} (xs : List SettingItem) : ∀ s : State, ∃ g l c, xs.foldl (State.putSetting p) s = { s.onPort p (fun pr => { pr with settings := c, noticeLine := l }) with settings := g }
   ∧ ((s.port p).lineHolds → l = (!(s.port p).notices.isEmpty && c.noticeLineEnable)) := by
  induction xs with
  | nil => intro s; refine ⟨s.settings, (s.port p).noticeLine, (s.port p).settings, ?_, fun h => h⟩; rw [onPort_id] <;> rfl
  | cons x xs ih =>
    intro s
    obtain ⟨g, l, c, h, hl⟩ := @put_frame p s x
    obtain ⟨g', l', c', h', hl'⟩ := ih (State.putSetting p s x)
    refine ⟨g', l', c', ?_, fun hh => ?_⟩
    · rw [List.foldl_cons, h', h]
      have : ∀ (u : State) (F G : PortRec → PortRec) (a b : StringSettings),
        ({ ({ u.onPort p F with settings := a } : State).onPort p G with settings := b } : State) = { (u.onPort p F).onPort p G with settings := b } := fun _ _ _ _ _ => rfl
      rw [this, onPort_onPort]
    · have hp : (State.putSetting p s x).port p = { s.port p with settings := c, noticeLine := l } := by
        rw [h]
        exact port_onPort_same (s := s) (p := p) (fun pr => { pr with settings := c, noticeLine := l })
      have := hl' (by
        rw [hp]; exact hl hh)
      rw [this, hp]

end Sys2Proof.Laws
end

