-- ==== Sys2Proof/Tests/Slice0.lean ====
section
/-! SUPPORT. The model's own tests: ill-formed commands refused by each check, values of the spec's worked examples and
tables, and for every statement with premises a concrete state that meets them. -/

namespace Sys2Proof.Tests
open Sys2Proof Sys2Proof.Machine

set_option Elab.async false

/-! ### Builders -/

/-- A request frame from numbers. -/
def frame (tag unit : Nat) (ps : List Nat) (flags : Nat := 0) : RequestFrame :=
  { tag := BitVec.ofNat 8 tag, flags := BitVec.ofNat 8 flags, unit := BitVec.ofNat 8 unit, priority := 0
    params := ps.map (BitVec.ofNat 8) }

/-- Port A and port B ONLINE; drive 0 READY at cylinder 568 with a factory-formatted pack. -/
def ready : State :=
  ((State.reset.onPort .A fun pr => { pr with online := true }).onPort .B fun pr => { pr with online := true }).onDrive 0
    fun dr =>
      { dr with
        state := .ready, motor := .atSpeed, curCyl := 568, tgtCyl := 568, armAt := 568, packSeated := true
        doorClosed := true, serial := some 7, pack := some { sectors := [] }
        map := { entries := [], labelState := .current, generation := 1, armed := true } }

/-- Drive 0 of `ready` changed. -/
def readyWith (f : DriveRec → DriveRec) : State := ready.onDrive 0 f

/-- A request of port A for drive 0. -/
def request (k : Kind) (f : RequestFrame) (o : Operands) : Request := ready.newRequest .A 0 k f o

/-- Count blocks from cylinder 1, head 0, sector 0. -/
def blocks (n : Nat) : Operands := .data { cyl := 1, head := 0, sector := 0 } n
def blocksFrame (n : Nat) (flags : Nat := 0) : RequestFrame := frame 3 0 [0, 1, 0, 0, n / 256, n % 256] flags

/-- `ready` with one request in the table, and the arm as given. -/
def holding (r : Request) (f : DriveRec → DriveRec) : State := { readyWith f with table := [r], nextOrder := 1 }

/-- The arm owned by request 0, on cylinder 1. -/
def owned (arm : ArmState) (dr : DriveRec) : DriveRec :=
  { dr with owner := some 0, arm := arm, curCyl := 1, armAt := 1, tgtCyl := 1 }

/-- A block of 512 equal octets. -/
def block (x : Octet) : Block := List.replicate 512 x

/-- The levels of an empty cable. -/
def noSpindle : SpindleSense :=
  { present := false, pack := .none, doorClosed := false, writeProtect := false, writeFault := false, startStrap := false }
def spindle : SpindleSense := { noSpindle with present := true, pack := .seated { sectors := [] }, doorClosed := true }

/-- The state after a command; the state itself where the command answers none. -/
def after (c : Instr) (s : State) : State :=
  match exec c s with
  | .next t => t
  | .fault _ => s
  | .refused _ => s

/-- The heads deliver what is recorded. -/
def asRecorded : SurfaceRead := { id := none, data := none }

/-- The leg of request 0 on path 0, its sector passing, the heads over cylinder `c`. -/
def passingAt (c : Nat) (r : Request) : State :=
  { holding r fun dr => { owned .onCylinder dr with curCyl := c, armAt := c } with path0 := .claimed 0 }
/-- The same on cylinder 1. -/
def passing (r : Request) : State := passingAt 1 r

/-- Request 0 of a kind with its leg under way. -/
def moving (k : Kind) (f : RequestFrame) (o : Operands) : Request :=
  { request k f o with state := .transferring, reachedArm := true, phase := .passing }
/-- A write of two blocks, a WRITE AND CHECK of two, and a read of two, each with its half as the leg needs it. -/
def writing : Request :=
  { moving .writeBlocks (blocksFrame 2) (blocks 2) with
    half0 := { Half.wanting 0 with state := .full, blocks := [block 1, block 2] } }
def pairing : Request := { writing with kind := .writeAndCheck }
def reading : Request :=
  { moving .readBlocks (blocksFrame 2) (blocks 2) with half0 := { Half.empty with state := .filling } }

/-- Two requests of drive 0 behind the arm owner 0: an early-ended write of port A, and one queued by port B. -/
def crowd (owner : Request) (f : DriveRec → DriveRec) : State :=
  let early := { writing with rid := 1, tag := 5, phase := .idle, state := .sparingWait, earlyEnded := true }
  let queued := { request .readBlocks (blocksFrame 1) (blocks 1) with rid := 2, port := .B }
  { readyWith f with table := [owner, early, queued], nextOrder := 3 }

/-! ### Ill-formed commands -/

theorem test_wf_longParams : (Instr.readStatus .A (frame 1 0 (List.replicate 256 0))).wellFormed = false := by
  decide +kernel
theorem test_wf_powerOnPack :
    (Instr.powerOn { spindles := Vector.replicate 8 { spindle with pack := .seated { sectors := [(218496, default)] } },
                     hold := Vector.replicate 4 false }).wellFormed = false := by decide +kernel
theorem test_wf_stringResetPack :
    (Instr.stringReset .A (frame 1 0 [])
      (Vector.replicate 8 { spindle with pack := .seated { sectors := [(0, factorySector 0)] } })).wellFormed = false := by
  decide +kernel
theorem test_wf_packOrder :
    (Instr.packSeated 0 { sectors := [(2, { factorySector 2 with data := makeData (block 1) }),
                                      (1, { factorySector 1 with data := makeData (block 1) })] }).wellFormed = false := by
  decide +kernel
theorem test_wf_packBlockLength :
    (Instr.packSeated 0 { sectors := [(1, { factorySector 1 with data := makeData [1] })] }).wellFormed = false := by
  decide +kernel
theorem test_wf_badFrameIsGood : (Instr.badFrame .A (withCheck [6])).wellFormed = false := by decide +kernel
theorem test_wf_dataOutLength : (Instr.dataOut .A 1 0 [1, 2]).wellFormed = false := by decide +kernel
theorem test_wf_spindleAbsent : (Instr.spindleSensed 0 noSpindle).wellFormed = false := by decide +kernel
theorem test_wf_cylinder : (Instr.onCylinder 0 569).wellFormed = false := by decide +kernel
theorem test_wf_surfaceRead :
    (Instr.sectorEvent 0 0 { id := none, data := some { block := [], check := 0 } }).wellFormed = false := by decide +kernel
theorem test_wf_knownKind : (Instr.kindInvalidRequest .A 30 (frame 1 0 [])).wellFormed = false := by decide +kernel
theorem test_wf_good : (Instr.readBlocks .A (blocksFrame 1)).wellFormed = true := by decide +kernel

/-! ### The table gives no row any bits -/

theorem test_noWord : decodeTableWord 16 0 = none := rfl
theorem test_noFetch : ready.withFetchWord 16 0 = ready := rfl

/-! ### Values of the spec -/

set_option maxRecDepth 100000 in
/-- The check code of the nine octets 49 to 57 is 10,673, recorded 41, 177 (1.7, after R11). -/
theorem test_checkCode : checkCode ((List.range 9).map fun i => BitVec.ofNat 8 (49 + i)) = 10673 ∧
    checkOctets (checkCode ((List.range 9).map fun i => BitVec.ofNat 8 (49 + i))) = [41, 177] := by decide +kernel
set_option maxRecDepth 100000 in
theorem test_zeroData : zeroData = makeData zeroBlock := by decide +kernel

/-- The example of 1.5: start (212, 5, 20), count 30, home (212, 6) on index 22. -/
theorem test_blocks_1_5 : blockOf { cyl := 212, head := 5, sector := 20 } = 81548 ∧ dataExtent 81548 30 = some (3397, 3399)
    ∧ altTrack 22 = trackOf 561 6 ∧ physicalTrack [.assign (trackOf 212 6) 22 .field] (trackOf 212 6) = trackOf 561 6 := by
  decide
/-- The examples of R4. -/
theorem test_extents_R4 :
    extentValid false { cyl := 559, head := 15, sector := 23 } 1 = true
    ∧ extentValid false { cyl := 559, head := 15, sector := 23 } 2 = false
    ∧ extentValid true { cyl := 559, head := 15, sector := 23 } 2 = true
    ∧ extentValid false { cyl := 560, head := 0, sector := 0 } 1 = false
    ∧ addressValid { cyl := 559, head := 16, sector := 0 } = false
    ∧ extentValid false { cyl := 400, head := 0, sector := 0 } 0 = true := by decide

/-- The estimates of 4.6 and 4.7. -/
theorem test_estimates_4_6 : transferEstimate 3800 100 100 10 = 3200 ∧ transferEstimate 3800 100 130 2 = 31200
    ∧ transferEstimate 3800 100 140 20 = 27000 ∧ transferEstimate 10500 100 130 2 = 24500
    ∧ transferEstimate 10500 100 140 20 = 20300 ∧ seekProfile (distance 100 300) = 26600
    ∧ transferEstimate 6300 50 50 10 = 17500 := by decide

/-- The choice of an alternate for home (212, 5) (R117): 21 when 5 is assigned; 0 when every index of head 5 is. -/
theorem test_alternates_R117 :
    chooseAlternate [.assign 0 5 .field] (trackOf 212 5) = some 21
    ∧ chooseAlternate ([5, 21, 37, 53, 69, 85, 101, 117].map fun k => .retire k) (trackOf 212 5) = some 0 := by decide

/-- The spans of R170's table. -/
theorem test_windowSpans_R170 :
    let span := fun (b l : Nat) =>
      match windowOperands? (frame 1 0 [0, b / 256, b % 256, l, 1, 1, 1]) with
      | some (.window _ base len _ _ _) => some (len, base, base + len - 1)
      | _ => none
    span 3205 4 = some (4, 3204, 3207) ∧ span 3205 3 = some (2, 3204, 3205) ∧ span 3205 8 = some (8, 3200, 3207)
    ∧ span 8959 6 = some (4, 8956, 8959) ∧ span 773 1 = some (1, 773, 773) := by decide

/-- The ID fields of 1.11: cylinder, head, sector, state and link of sector 9 of the alternate. -/
theorem test_idField_1_11 :
    (makeId (trackOf 561 6) 9 stAlternate (some (trackOf 212 6)) false).covered = [2, 49, 6, 9, 3, 0, 212, 6, 0]
    ∧ idCondition (makeId (trackOf 561 6) 9 stAlternate (some (trackOf 212 6)) false) 561 6 9
        (.alternate (trackOf 212 6)) = none
    ∧ idCondition (makeId (trackOf 212 6) 0 stDefective (some (trackOf 561 6)) false) 212 6 0 .home =
        some (.disagree (some (trackOf 561 6))) := by decide +kernel

/-- The link reset frame: three octets, its own check (10.8, R178). -/
theorem test_linkResetFrame : isBadFrame (withCheck [6]) = false ∧ isBadFrame [6, 0, 0] = true
    ∧ isBadFrame (withCheck [2]) = true ∧ isBadFrame (withCheck [6, 0]) = true := by decide +kernel

set_option maxRecDepth 100000 in
/-- A label reads back, and a repeated index makes it unreadable (R15, R16). -/
theorem test_label :
    let m : LabelImage := { serial := 70000, generation := 3, entries := [.assign 3398 22 .field, .retire 5] }
    let b := labelBlocks m
    readLabel b.1 b.2.1 b.2.2 = some m
    ∧ b.1.take 7 = [0, 1, 17, 112, 0, 3, 2] ∧ b.2.1.take 12 = [0, 212, 6, 22, 2, 0, 255, 255, 255, 5, 16, 0]
    ∧ (let c := labelBlocks { m with entries := [.assign 3398 22 .field, .retire 22] }
       readLabel c.1 c.2.1 c.2.2 = none) := by decide +kernel

/-- At power-on with strapped drives 0 and 1, drive 0 starts and drive 1 waits for the gap (2.11). -/
theorem test_staggeredStart :
    let x : PowerOnSense :=
      { spindles := #v[{ spindle with startStrap := true }, { spindle with startStrap := true }, spindle, noSpindle,
                       noSpindle, noSpindle, noSpindle, noSpindle], hold := Vector.replicate 4 false }
    let t := after (.powerOn x) State.reset
    (t.drive 0).state = .starting ∧ (t.drive 1).state = .stopped ∧ t.startList = [1] ∧ t.gateOpen = false
      ∧ (t.drive 2).state = .stopped ∧ (t.drive 3).state = .absent := by decide +kernel

/-- A READ of one block: chosen, SEEKING, its report DONE only after its data-in frame is sent (R82, R109). -/
theorem test_readChosen :
    let t := after (.readBlocks .A (blocksFrame 1)) ready
    t.table.map (·.state) = [.seeking] ∧ (t.drive 0).tgtCyl = 1 ∧ (t.drive 0).owner = some 0
      ∧ (t.port .A).reports = [] := by decide +kernel

/-- Unit 8 with unit base 0 maps to no drive, and an ABSENT drive is unknown (R47, R179). -/
theorem test_unitUnknown :
    ((after (.readStatus .A (frame 1 8 [])) ready).port .A).reports.map (·.detail) = [.unitUnknown]
    ∧ ((after (.readStatus .A (frame 1 1 [])) ready).port .A).reports.map (·.detail) = [.unitUnknown] := by decide +kernel

/-- A data request refused for a mapped but ABSENT drive carries the count kept for that drive (R65, R148, R179). -/
theorem test_absentDriveCount :
    let s := ready.onDrive 1 fun dr => { dr with recCounts := Vector.replicate 4 { count := 7, cls := some .read } }
    let rep := denialReport s .A 1 (some .readBlocks) (frame 3 1 [0, 1, 0, 0, 0, 1]) .unitUnknown
    s.checks .A .readBlocks (frame 3 1 [0, 1, 0, 0, 0, 1]) = .error .unitUnknown ∧ rep.recoveredCount = 7 := by
  refine ⟨rfl, by decide +kernel⟩

/-- A maintenance kind from a port without the strap is refused (R47 check 5). -/
theorem test_seizeNeedsStrap :
    ((after (.seize .B (frame 1 0 [])) ready).port .B).reports.map (·.detail) = [.maintNotPermitted] := by decide +kernel

/-- A slip: the half that a read takes over while it still drains serves the next round (R101, R102, R107). -/
theorem test_slipTakesRound :
    let r := { request .readBlocks (blocksFrame 40) (blocks 40) with
      nextBlock := 24, curHalf := true, half0 := { Half.empty with state := .draining }
      half1 := { Half.empty with state := .filling, round := 1 } }
    r.round = 1 ∧ r.roundComplete = true ∧ r.toggle.curHalf = false ∧ r.toggle.round = 2
      ∧ r.toggle.half1.state = .draining := by decide +kernel

/-- A failed data-out frame of one octet has no tag octet, and ends no write (R178). -/
theorem test_shortFrameNamesNone :
    let r := { writing with tag := 0 }
    let t := after (.badFrame .A [3]) (holding r (owned .onCylinder))
    t.table = [r] ∧ (t.port .A).frameErrors = 1 := by decide +kernel

/-- A seek check in an operation's read leg, the retries spent, names the sector that had it (R120, R143). -/
theorem test_seekCheckNamesItsSector :
    let op : SpareOp := { step := .readSource, home := 16, source := none, alt := 0, attempt := 1, origin := .field,
                          pos := 5, revs := 0 }
    let r := { moving .spareTrack (frame 4 0 [0, 1, 0]) (.track { cyl := 1, head := 0, sector := 0 }) with
      state := .sparing, op := some op, retries := 8 }
    let s := { passing r with buffer := { SpareBuffer.initial with holder := some 0 } }
    let t := after (.sectorEvent 0 6 { id := some (makeId 32 5 stGood none false), data := none }) s
    (t.port .A).reports.map (fun x => (x.detail, x.failing)) = [(.seekCheck, some { cyl := 1, head := 0, sector := 5 })] := by
  decide +kernel

/-- Two SYNCHRONIZE requests settled in one event, a STOP DRIVE behind the first: both end DONE before the stop (R153). -/
theorem test_settledBeforeStop :
    let sync := fun (n : Nat) => { request .synchronize (frame n 0 []) .empty with rid := n, state := .controlWait }
    let stop := { request .stopDrive (frame 2 0 []) .empty with rid := 2, state := .waitingChain, pred := some 1 }
    let t := ready.settle { ready with table := [sync 1, stop, sync 3], nextOrder := 4 }
    (t.port .A).reports.map (fun x => (x.tag, x.cls)) = [(1, .done), (3, .done)] ∧ t.table.map (·.rid) = [2]
      ∧ (t.drive 0).state = .stopping := by decide +kernel

/-- A SYNCHRONIZE that a decision of the same event lets settle ends with the record the first ended with (R153). -/
theorem test_settledWithSameRecord :
    let x : DeferredRec := { (default : DeferredRec) with failures := 3 }
    let sync := fun (n : Nat) => { request .synchronize (frame n 0 []) .empty with rid := n, state := .controlWait }
    let spare := { request .spareTrack (frame 4 0 [0, 1, 0]) (.track { cyl := 1, head := 0, sector := 0 }) with rid := 4 }
    let write := { request .writeBlocks (blocksFrame 1) (blocks 1) with
      rid := 5, tag := 5, state := .waitingChain, pred := some 4, earlyEffective := true }
    let s := readyWith fun dr => { dr with
      deferred := Vector.replicate 4 (some x), map := { dr.map with entries := (List.range 128).map .retire } }
    let t := s.settle { s with table := [sync 1, spare, write, sync 6], nextOrder := 7 }
    (t.port .A).reports.map (fun x => (x.tag, x.cls, x.body)) =
        [(1, .deferred, .deferred x), (4, .ended, .none), (5, .notRun, .none), (6, .deferred, .deferred x)]
      ∧ t.table = [] ∧ ofPort (t.drive 0).deferred .A = none ∧ ofPort (t.drive 0).deferred .B = some x := by
  decide +kernel

/-- Every drive READY with its arm free at cylinder 568, requests queued, and `n` segments held. -/
def eightReady (n : Nat) (rs : List Request) : State :=
  { ready with
    drives := Vector.replicate 8 (ready.drive 0), table := rs, nextOrder := 50
    segments := Vector.ofFn fun i => if i.val < n then some 0 else none }

/-- The example of 4.8: the pair freed goes to X, overdue on drive 1, ahead of the older Y on drive 6; with a POSITION of
chain precedence ahead of X, Y takes it (R91). -/
theorem test_example_4_8 :
    let read := fun (n : Nat) (d : Drive) (x : Nat) =>
      { request .readBlocks (blocksFrame 1) (blocks 1) with rid := n, tag := n % 16, drive := d, passes := x }
    let rs := [read 31 6 3, read 37 4 0, read 40 1 12]
    let position := { request .position (frame 1 1 [1, 44]) (.cylinder 300) with rid := 45, drive := 1, chainPrecedence := true }
    let chosen := fun (s : State) => (allDrives.filterMap fun d => (s.drive d).owner, s.freeSegments)
    chosen ((eightReady 8 rs).settle (eightReady 6 rs)) = ([40], [])
      ∧ chosen ((eightReady 8 (rs ++ [position])).settle (eightReady 6 (rs ++ [position]))) = ([45, 31], []) := by
  decide +kernel

/-- The segment order stands once the pair is taken: of the drives behind it, the one with the older segment waiter is
tested first and takes the free buffer, though the other asks for it with the older request (R91). A buffer freed alone
is offered in the order of the requests for it. -/
theorem test_segmentOrderStands :
    let read := fun (n : Nat) (d : Drive) =>
      { request .readBlocks (blocksFrame 1) (blocks 1) with rid := n, tag := n % 16, drive := d }
    let spare := fun (n : Nat) (d : Drive) =>
      { request .spareTrack (frame 4 0 [0, 2, 0]) (.track { cyl := 2, head := 0, sector := 0 }) with
        rid := n, tag := n % 16, drive := d }
    let rs := [read 10 1, read 20 2, read 21 3, spare 30 3, spare 31 2]
    let held : State := { eightReady 8 rs with buffer := { SpareBuffer.initial with holder := some 0 } }
    let owners := fun (s : State) => (allDrives.filterMap fun d => (s.drive d).owner, s.buffer.holder)
    owners ((eightReady 8 rs).settle (eightReady 6 rs)) = ([10, 31], some 31)
      ∧ owners (held.settle (eightReady 8 rs)) = ([30], some 30) := by
  decide +kernel

/-- A load completes with two START DRIVE requests waiting, a STOP DRIVE behind the first: both end DONE (R23, R25). -/
theorem test_startsBeforeStop :
    let start := fun (n : Nat) => { request .startDrive (frame n 0 []) .empty with rid := n, state := .controlWait }
    let stop := { request .stopDrive (frame 2 0 []) .empty with rid := 2, state := .waitingChain, pred := some 1 }
    let s := readyWith fun dr => { dr with state := .loading }
    let t := State.loadComplete { s with table := [start 1, stop, start 3], nextOrder := 4 } 0 none
    (t.port .A).reports.map (fun x => (x.tag, x.cls)) = [(1, .done), (3, .done)] ∧ t.table.map (·.rid) = [2]
      ∧ (t.drive 0).state = .stopping := by decide +kernel

/-- A clearing succeeds for two CLEAR FAULT requests, a STOP DRIVE behind the first: both end DONE (R40). -/
theorem test_clearersBeforeStop :
    let clear := fun (n : Nat) => { request .clearFault (frame n 0 []) .empty with rid := n, state := .controlWait }
    let stop := { request .stopDrive (frame 2 0 []) .empty with rid := 2, state := .waitingChain, pred := some 1 }
    let s := readyWith fun dr => { dr with state := .faulted, arm := .recalibrating, clearing := true }
    let t := after (.homeEvent 0) { s with table := [clear 1, stop, clear 3], nextOrder := 4 }
    (match (t.port .A).sending with
      | some (.report x) => some (x.tag, x.cls)
      | _ => none) = some (1, .done)
      ∧ (t.port .A).reports.map (fun x => (x.tag, x.cls)) = [(1, .done), (3, .done)]
      ∧ t.table.map (·.rid) = [2] ∧ (t.drive 0).state = .stopping := by decide +kernel

/-! ### Witnesses: a state and operands that meet the premises of each statement -/

theorem witness_StepRunsFront :
    ({ ready with pending := [.startGapExpiry] } : State).pending = [.startGapExpiry] ∧ ready.pending = [] := ⟨rfl, rfl⟩

theorem witness_ExecKeepsQueue : ∃ t, exec (.reserve .A (frame 1 0 [])) { ready with pending := [.startGapExpiry] } = .next t :=
  ⟨_, rfl⟩
theorem witness_InvariantKeptByStep :
    let s : State := { ready with pending := [.testNotice .A (frame 1 0 [2])] }
    (∀ c ∈ s.pending, c.wellFormed = true) ∧ s.Inv ∧ ∃ t, step s = .next t := by
  refine ⟨by decide +kernel, ⟨fun p => ?_, by decide +kernel, fun d p => ?_, by decide +kernel⟩, ⟨_, rfl⟩⟩
  · cases p <;> decide +kernel
  · revert p
    revert d
    decide +kernel

theorem witness_PowerOnValues :
    let x : PowerOnSense :=
      { spindles := Vector.replicate 8 { spindle with startStrap := true }, hold := Vector.replicate 4 false }
    (allDrives.filter fun d => x.spindles[d].startStrap && x.spindles[d].present).find? (fun d =>
      match x.spindles[d].pack with
      | .seated _ => x.spindles[d].doorClosed
      | _ => false) = some 0 := by decide +kernel

theorem witness_PowerLossKeepsPacks :
    let s := passing writing
    let l := s.leg writing
    ready.powered = true ∧ (∀ d : Drive, ready.recording d = none)
    ∧ s.powered = true ∧ s.recording 0 = some writing ∧ (s.drive 0).pack = some { sectors := [] }
    ∧ Pack.wf { sectors := [] } = true ∧ (s.drive 0).underHeads l.sector < 218496
    ∧ writeCondition (s.drive 0) l (Pack.read { sectors := [] } ((s.drive 0).underHeads l.sector)) = none := by
  intros; and_intros <;> decide +kernel +revert

theorem witness_EveryCommandCompletes :
    ({ ready with powered := false } : State).powered = false ∧ ∀ x, Instr.startGapExpiry ≠ .powerOn x :=
  ⟨rfl, fun _ h => by cases h⟩

theorem witness_PortResetLeaves :
    let s := (crowd reading fun dr => { owned .onCylinder dr with
      unit := { dr.unit with owner := some .A, wanted := Vector.replicate 4 true } })
    ready.powered = true ∧ (ready.port .A).online = true ∧ ready.entriesOf .A = [] ∧ ready.quiet
    ∧ s.powered = true ∧ (s.port .A).online = true ∧ s.tableHolds ∧ ∀ q ∈ s.table, q.kind ≠ .labelUpdate := by
  intros; and_intros <;> decide +kernel +revert

/-- Drive 0 in the midst of a recording leg, drive 1 waiting in the start list with its pack seated. -/
def resettable : State :=
  { (passing writing).onDrive 1 fun dr =>
      { dr with state := .stopped, packSeated := true, doorClosed := true, pack := some { sectors := [] } } with
    startList := [1, 2] }

theorem witness_StringResetLeaves :
    let cables := Vector.replicate 8 spindle
    ready.admits .stringReset .A (frame 1 0 []) .empty ∧ (ready.stringReset cables).startable = none
    ∧ resettable.admits .stringReset .A (frame 1 0 []) .empty ∧ (resettable.stringReset cables).startable = some 1 := by
  decide +kernel

theorem witness_RequestNotTaken :
    let full := ready.onPort .A fun pr => { pr with reports := List.replicate 24 default }
    let busy := holding (request .readBlocks (blocksFrame 1) (blocks 1)) id
    requestCommand .reserve .A (frame 3 0 []) = some (.reserve .A (frame 3 0 [])) ∧ ready.powered = true
    ∧ (ready.port .C).online = false
    ∧ (full.port .A).online = true ∧ full.hasRoom .A = false
    ∧ (busy.port .A).online = true ∧ busy.hasRoom .A = true ∧ (busy.tagged? .A (frame 3 0 []).tagNumber).isSome = true := by decide +kernel

theorem witness_RequestNotTaken_unit :
    ready.takes .A (frame 3 1 [0, 1, 0, 0, 0, 1]) ∧ ready.mapUnit .A 1 = some 1 ∧ (ready.drive 1).state = .absent
    ∧ ready.takes .A (frame 3 9 [0, 1, 0, 0, 0, 1]) ∧ ready.mapUnit .A 9 = none
    ∧ Kind.readBlocks.carriesUnit = true := by decide +kernel

theorem witness_KindInvalidRefused :
    ready.takes .A (frame 1 0 []) := by decide +kernel

theorem witness_ReservedRefused :
    let s := readyWith fun dr => { dr with unit := { dr.unit with owner := some .B } }
    s.reaches .writeBlocks .A (blocksFrame 1) 0 (blocks 1) ∧ (s.drive 0).serves .writeBlocks
    ∧ (s.drive 0).unit.owner = some .B := by decide +kernel

theorem witness_AttentionRefused :
    let s := readyWith fun dr =>
      { dr with unit := { dr.unit with owner := some .B, attention := Vector.replicate 4 (some .packReady) } }
    s.reaches .seize .A (frame 1 0 []) 0 .empty ∧ (s.drive 0).serves .seize
    ∧ ofPort (s.drive 0).unit.attention .A = some .packReady := by decide +kernel

theorem witness_DeferredRefused :
    let s := readyWith fun dr => { dr with deferred := Vector.replicate 4 (some default) }
    s.reaches .synchronize .A (frame 1 0 []) 0 .empty ∧ (s.drive 0).serves .synchronize
    ∧ (s.drive 0).unit.owner = none ∧ ofPort (s.drive 0).unit.attention .A = none
    ∧ ofPort (s.drive 0).deferred .A = some default := by decide +kernel

theorem witness_WindowStopRefused :
    let x : Window := { owner := .B, drive := 0, base := 16, length := 4, access := .write, action := .stopBefore,
                        scope := .otherPorts }
    let s := { ready with windows := #v[none, some x, none, none] }
    s.reaches .writeBlocks .A (blocksFrame 1) 0 (blocks 1) ∧ (s.drive 0).state = .ready ∧ (s.drive 0).clear .A
    ∧ (s.drive 0).writeProtect = false
    ∧ s.stoppingWindows .A 0 .writeBlocks (blocksFrame 1).passWatch (blocks 1) = [(1, x, 16)] := by decide +kernel

theorem witness_NotReadyRefused :
    let f := readyWith fun dr => { dr with state := .faulted }
    let s := readyWith fun dr => { dr with state := .stopped }
    f.reaches .reserve .A (frame 1 0 []) 0 .empty ∧ (f.drive 0).state = .faulted
    ∧ s.reaches .reserve .A (frame 1 0 []) 0 .empty ∧ (s.drive 0).state = .stopped := by decide +kernel

theorem witness_ArmRequestQueued :
    let s := readyWith fun dr => { dr with arm := .seeking }
    armCommand .formatTrack .A (frame 1 0 [0, 1, 0, 1]) = some (.formatTrack .A (frame 1 0 [0, 1, 0, 1]))
    ∧ s.passes .formatTrack .A (frame 1 0 [0, 1, 0, 1]) 0 (.format { cyl := 1, head := 0, sector := 0 } false)
    ∧ s.passes .readBlocks .A (blocksFrame 1) 0 (blocks 1)
    ∧ (s.newRequest .A 0 .readBlocks (blocksFrame 1) (blocks 1)).count ≠ 0
    ∧ (s.port .A).marker = none ∧ (s.drive 0).armFree = false := by decide +kernel

theorem witness_CountZeroEndsAtArrival :
    let s := ready.onPort .A fun pr => { pr with marker := some { member := none, drive := 0, standing := .endedDone } }
    ready.passes .writeBlocks .A (blocksFrame 0) 0 (blocks 0) ∧ (ready.port .A).marker = none
    ∧ s.passes .writeBlocks .A (blocksFrame 0) 0 (blocks 0)
    ∧ (s.newRequest .A 0 .writeBlocks (blocksFrame 0) (blocks 0)).count = 0 := by decide +kernel

theorem witness_ChainMemberTaken :
    let m := fun (st : Standing) => ({ member := some 0, drive := 0, standing := st } : ChainMark)
    let s := fun (st : Standing) =>
      (holding (request .readBlocks (blocksFrame 1 128) (blocks 1)) fun dr => { dr with arm := .seeking }).onPort .A
        fun pr => { pr with marker := some (m st) }
    (s .unended).passes .position .A (frame 4 0 [0, 9]) 0 (.cylinder 9) ∧ ((s .unended).port .A).marker = some (m .unended)
    ∧ (s .endedDone).passes .position .A (frame 4 0 [0, 9]) 0 (.cylinder 9)
    ∧ ((s .endedDone).port .A).marker = some (m .endedDone) ∧ ((s .endedDone).drive 0).armFree = false
    ∧ (s .endedOther).passes .stopDrive .A (frame 4 0 []) 0 .empty
    ∧ ((s .endedOther).port .A).marker = some (m .endedOther) := by
  intros; and_intros <;> decide +kernel +revert

theorem witness_ArmKindChosen :
    ready.passes .position .A (frame 4 0 [0, 9]) 0 (.cylinder 9) ∧ 9 ≠ (ready.drive 0).curCyl
    ∧ ready.passes .recalibrate .A (frame 4 0 []) 0 .empty
    ∧ (ready.port .A).marker = none ∧ (ready.drive 0).armFree = true ∧ ready.quiet ∧ ready.fresh := by
  and_intros <;> decide +kernel +revert

theorem witness_DataRequestChosen :
    ready.passes .writeAndCheck .A (blocksFrame 20) 0 (blocks 20) ∧ (ready.port .A).marker = none
    ∧ (ready.drive 0).armFree = true ∧ ready.quiet ∧ ready.fresh
    ∧ (ready.newRequest .A 0 .writeAndCheck (blocksFrame 20) (blocks 20)).count ≠ 0
    ∧ ready.barred (ready.newRequest .A 0 .writeAndCheck (blocksFrame 20) (blocks 20)) = false
    ∧ ready.freeSegments = [0, 1, 2, 3, 4, 5, 6, 7] := by decide +kernel

theorem witness_ControlDoneAtArrival :
    ready.passes .startDrive .A (frame 4 0 []) 0 .empty ∧ ready.passes .synchronize .A (frame 4 0 []) 0 .empty
    ∧ (ready.port .A).marker = none ∧ ready.quiet ∧ ready.fresh
    ∧ ready.awaited (ready.newRequest .A 0 .synchronize (frame 4 0 []) .empty) = [] := by
  and_intros <;> decide +kernel +revert

theorem witness_ControlWaits :
    let stopped := readyWith fun dr => { dr with state := .stopped, packSeated := false }
    let starting := readyWith fun dr => { dr with state := .starting }
    let early := holding { request .writeBlocks (blocksFrame 1) (blocks 1) with earlyEffective := true, state := .positioned }
      fun dr => { dr with owner := some 0, arm := .onCylinder }
    stopped.reaches .startDrive .A (frame 4 0 []) 0 .empty ∧ (stopped.drive 0).clear .A ∧ stopped.quiet
    ∧ (stopped.port .A).marker = none ∧ (stopped.drive 0).state = .stopped ∧ (stopped.drive 0).packSeated = false
    ∧ starting.reaches .startDrive .A (frame 4 0 []) 0 .empty ∧ (starting.drive 0).clear .A ∧ starting.quiet
    ∧ early.reaches .synchronize .A (frame 4 0 []) 0 .empty ∧ (early.drive 0).clear .A ∧ early.quiet
    ∧ (early.port .A).marker = none ∧ (early.drive 0).state = .ready
    ∧ early.awaited (early.newRequest .A 0 .synchronize (frame 4 0 []) .empty) ≠ [] := by
  intros; and_intros <;> decide +kernel +revert

/-- A SYNCHRONIZE of port A whose last awaited write has left, the deferred record as given. -/
def settling (x : Option DeferredRec) : State :=
  holding { request .synchronize (frame 4 0 []) .empty with state := .controlWait } fun dr =>
    { dr with deferred := Vector.replicate 4 x }

theorem witness_ControlWaits_starts :
    let stopping := readyWith fun dr => { dr with state := .stopping, motor := .coasting }
    let stopped := readyWith fun dr => { dr with state := .stopped }
    let r := { request .synchronize (frame 4 0 []) .empty with state := .controlWait }
    stopping.reaches .startDrive .A (frame 4 0 []) 0 .empty ∧ (stopping.drive 0).clear .A ∧ stopping.quiet
    ∧ (stopping.port .A).marker = none ∧ (stopping.drive 0).state = .stopping
    ∧ stopped.reaches .startDrive .A (frame 4 0 []) 0 .empty ∧ (stopped.drive 0).clear .A ∧ stopped.quiet
    ∧ (stopped.port .A).marker = none ∧ (stopped.drive 0).state = .stopped ∧ (stopped.drive 0).packSeated = true
    ∧ (stopped.drive 0).doorClosed = true ∧ stopped.gateOpen = true
    ∧ (∀ x : Option DeferredRec, x = none ∨ x = some default →
      (settling x).buffer.waiters = [] ∧ (settling x).settled = [r] ∧ (settling x).plain r ∧ r.reachedArm = false
      ∧ ofPort ((settling x).drive 0).deferred .A = x)
    ∧ ((settling none).conclude 0 (Ending.make .done .none)).quiet
    ∧ ((settling (some default)).conclude 0 (Ending.make .deferred .none)).quiet := by
  refine ⟨?_, ?_, ?_, ?_, ?_, ?_, ?_, ?_, ?_, ?_, ?_, ?_, ?_, ?_, ?_, ?_⟩ <;> try decide +kernel
  rintro x (rfl | rfl) <;> decide +kernel

theorem witness_ControlWaits_twoStarting :
    let st := fun (dr : DriveRec) => { dr with state := .starting }
    let s := ((readyWith fun dr => { dr with state := .stopped }).onDrive 1 st).onDrive 2 st
    s.reaches .startDrive .A (frame 4 0 []) 0 .empty ∧ (s.drive 0).clear .A ∧ (s.port .A).marker = none ∧ s.quiet
    ∧ (s.drive 0).state = .stopped ∧ s.gateOpen = true ∧ (s.drive 0).packSeated = true ∧ (s.drive 0).doorClosed = true
    ∧ 2 ≤ (allDrives.filter fun e => decide ((s.drive e).state = .starting)).length := by
  intros; and_intros <;> decide +kernel +revert

theorem witness_StopDriveStops :
    let s := crowd reading (owned .onCylinder)
    let w := readyWith fun dr => { dr with unit := { dr.unit with owner := some .A, wanted := #v[false, true, true, false] } }
    ready.passes .stopDrive .A (frame 4 0 []) 0 .empty ∧ (ready.port .A).marker = none ∧ ready.quiet ∧ ready.fresh
    ∧ ready.unused 0 ∧ w.passes .stopDrive .A (frame 4 0 []) 0 .empty ∧ w.quiet ∧ w.fresh ∧ w.unused 0
    ∧ (w.drive 0).unit.owner = some .A
    ∧ s.passes .stopDrive .A (frame 4 0 []) 0 .empty ∧ (s.port .A).marker = none ∧ s.fresh ∧ s.fansPlainly 0
    ∧ (s.drive 0).unit.owner = none := by
  intros; and_intros <;> decide +kernel +revert

theorem witness_ClearFaultActs :
    let x : FaultRecord := { kind := .seekTimeout, curCyl := 0, tgtCyl := 1, owner := none, collected := true }
    let s := fun (m : Motor) (c coll : Bool) =>
      readyWith fun dr => { dr with state := .faulted, motor := m, clearing := c, fault := some { x with collected := coll } }
    let meets := fun (s : State) =>
      s.reaches .clearFault .A (frame 4 0 []) 0 .empty ∧ (s.drive 0).clear .A ∧ (s.port .A).marker = none ∧ s.quiet ∧ s.fresh
    meets (s .atSpeed false true) ∧ meets (s .atSpeed true true) ∧ meets (s .off false true) ∧ meets (s .atSpeed false false)
    ∧ meets (s .coasting false true) ∧ (s .coasting false true).unused 0
    ∧ meets ready ∧ ((s .off false true).drive 0).unit.owner = none ∧ (0 : Drive) ∉ (s .off false true).startList
    ∧ ((s .off false true).drive 0).state = .faulted ∧ ((s .atSpeed false false).drive 0).state = .faulted
    ∧ (ready.drive 0).state ≠ .faulted := by
  intros; and_intros <;> decide +kernel +revert

theorem witness_UpkeepRequestChosen :
    let s := readyWith fun dr => { dr with curCyl := 5, map := { dr.map with entries := [.assign 32 3 .field] } }
    let tr := fun (c : Nat) => ({ cyl := c, head := 0, sector := 0 } : Addr)
    s.passes .spareTrack .A (frame 4 0 [0, 1, 0]) 0 (.track (tr 1)) ∧ chooseAlternate (s.drive 0).map.entries 16 = some 0
    ∧ cylOf (physicalTrack (s.drive 0).map.entries 16) ≠ (s.drive 0).curCyl
    ∧ s.passes .returnAlternate .A (frame 4 0 [0, 2, 0]) 0 (.track (tr 2)) ∧ lookupHome (s.drive 0).map.entries 32 = some 3
    ∧ cylOf (altTrack 3) ≠ (s.drive 0).curCyl
    ∧ s.passes .returnAlternate .A (frame 4 0 [0, 1, 0]) 0 (.track (tr 1)) ∧ lookupHome (s.drive 0).map.entries 16 = none
    ∧ s.matching .reportAfter .A 0 .returnAlternate (some (16, 16)) = []
    ∧ s.passes .formatTrack .A (frame 4 0 [0, 1, 0, 1]) 0 (.format (tr 1) false)
    ∧ s.passes .writeLabel .A (frame 4 0 []) 0 .empty ∧ 568 ≠ (s.drive 0).curCyl
    ∧ s.barred (s.newRequest .A 0 .spareTrack (frame 4 0 [0, 1, 0]) (.track (tr 1))) = false
    ∧ (s.port .A).marker = none ∧ (s.drive 0).armFree = true ∧ s.quiet ∧ s.fresh ∧ s.buffer.holder = none := by
  intros; and_intros <;> decide +kernel +revert

theorem witness_ReservationsMove :
    let s := fun (q : Port) => readyWith fun dr =>
      { dr with unit := { dr.unit with owner := some q, wanted := #v[true, false, true, false] } }
    ready.reaches .reserve .A (frame 1 0 []) 0 .empty ∧ (ready.drive 0).clear .A
    ∧ (s .A).reaches .release .A (frame 1 0 []) 0 .empty ∧ ((s .A).drive 0).unit.owner = some .A
    ∧ (s .B).reaches .release .A (frame 1 0 []) 0 .empty ∧ ((s .B).drive 0).unit.owner ≠ some .A
    ∧ ready.reaches .seize .A (frame 1 0 []) 0 .empty ∧ (ready.drive 0).unit.owner = none
    ∧ (s .A).reaches .seize .A (frame 1 0 []) 0 .empty
    ∧ (s .B).reaches .seize .A (frame 1 0 []) 0 .empty ∧ ((s .B).drive 0).state = .ready
    ∧ ofPort ((s .B).drive 0).unit.attention .A = none ∧ ofPort ((s .B).drive 0).deferred .A = none
    ∧ ((s .B).drive 0).unit.owner = some .B := by
  intros; and_intros <;> decide +kernel +revert

theorem witness_RecordsRead :
    let x : FaultRecord := { kind := .seekTimeout, curCyl := 0, tgtCyl := 1, owner := none, collected := false }
    let s := readyWith fun dr => { dr with state := .faulted, fault := some x }
    ready.reaches .readStatus .A (frame 1 0 []) 0 .empty ∧ ready.reaches .readSpareMap .A (frame 1 0 []) 0 .empty
    ∧ ready.admits .readIdentity .A (frame 1 0 []) .empty ∧ ready.admits .readSettings .A (frame 1 0 []) .empty
    ∧ ready.reaches .readFaultRecord .A (frame 1 0 []) 0 .empty ∧ (ready.drive 0).state ≠ .faulted
    ∧ s.reaches .readFaultRecord .A (frame 1 0 []) 0 .empty ∧ (s.drive 0).state = .faulted ∧ (s.drive 0).fault = some x := by
  intros; and_intros <;> decide +kernel +revert

theorem witness_CollectTakesOldest :
    ready.admits .collectNotices .A (frame 1 0 [62, 10, 1]) (.collect 62 [.test, .driveFree]) := by decide +kernel

theorem witness_TestNoticePosts :
    let n : Notice := { kind := .test, subject := .none, occurrences := 255, details := .none }
    let s := ready.onPort .B fun pr => { pr with notices := [n] }
    ready.admits .testNotice .A (frame 1 0 [2]) (.port .B) ∧ (ready.port .B).notices = []
    ∧ s.admits .testNotice .A (frame 1 0 [2]) (.port .B) ∧ (s.port .B).notices = [] ++ n :: []
    ∧ ready.takes .A (frame 1 0 [0]) ∧ ready.takes .A (frame 1 0 [5]) := by decide +kernel

theorem witness_CancelActs :
    let r := request .readBlocks (blocksFrame 1) (blocks 1)
    let q := holding r fun dr => { dr with arm := .seeking }
    let m := holding { r with state := .seeking } (owned .seeking)
    let x := holding { r with state := .transferring } (owned .onCylinder)
    let e := holding { r with earlyEnded := true } id
    ready.admits .cancel .A (frame 1 0 [3]) (.target 3) ∧ ready.tagged? .A 3 = none
    ∧ e.admits .cancel .A (frame 1 0 [3]) (.target 3) ∧ e.tagged? .A 3 = some { r with earlyEnded := true }
    ∧ x.admits .cancel .A (frame 1 0 [3]) (.target 3) ∧ x.tagged? .A 3 = some { r with state := .transferring }
    ∧ m.admits .cancel .A (frame 1 0 [3]) (.target 3) ∧ m.tagged? .A 3 = some { r with state := .seeking }
    ∧ (m.drive 0).owner = some 0 ∧ (m.drive 0).arm ≠ .onCylinder
    ∧ q.admits .cancel .A (frame 1 0 [3]) (.target 3) ∧ q.tagged? .A 3 = some r ∧ r.state = .queued ∧ q.plain r
    ∧ q.unnamed r.rid ∧ r.reachedArm = false ∧ r.earlyEffective = false ∧ q.quiet := by
  intros; and_intros <;> decide +kernel +revert

theorem witness_CancelActs_more :
    let f := frame 1 0 [3]
    let r := request .writeBlocks (blocksFrame 1) (blocks 1)
    let c := { request .startDrive (frame 3 0 []) .empty with state := .controlWait }
    let busy := fun (dr : DriveRec) => { dr with arm := .seeking }
    let w := { r with state := .waitingChain }
    let s := fun (x : Request) => holding x busy
    (∀ x ∈ [w, c], (s x).admits .cancel .A f (.target 3) ∧ (s x).tagged? .A 3 = some x ∧ (s x).plain x
      ∧ (s x).unnamed x.rid ∧ x.reachedArm = false ∧ x.earlyEffective = false ∧ (s x).quiet)
    ∧ (∀ st ∈ [ReqState.positioned, .sparingWait],
      let x := { r with state := st }
      (s x).admits .cancel .A f (.target 3) ∧ (s x).tagged? .A 3 = some x ∧ (s x).plain x
      ∧ ((s x).conclude 0 Ending.cancelled).quiet)
    ∧ ∀ st ∈ [ReqState.seeking, .recalibrating, .transferring, .sparing],
      let x := { r with state := st, cancelPending := true }
      (s x).admits .cancel .A f (.target 3) ∧ (s x).tagged? .A 3 = some x := by
  intros; and_intros <;> decide +kernel +revert

/-- `ready` with window 0 set by port B. -/
def fenced : State :=
  { ready with windows := #v[some { owner := .B, drive := 0, base := 0, length := 1, access := .any, action := .stopBefore,
                                    scope := .allPorts }, none, none, none] }

theorem witness_WindowSetActs :
    fenced.reaches .setWindow .A (frame 1 0 [3, 0, 9, 8, 1, 1, 1]) 0 (.window 3 8 8 .write .stopBefore .allPorts)
    ∧ fenced.windows[3] = none
    ∧ fenced.reaches .setWindow .A (frame 1 0 [0, 0, 9, 8, 1, 1, 1]) 0 (.window 0 8 8 .write .stopBefore .allPorts)
    ∧ fenced.windows[0].isSome = true ∧ (∀ y ∈ fenced.windows[0], y.owner ≠ .A) := by decide +kernel

theorem witness_WindowsClearedAndRead :
    fenced.takes .A (frame 1 0 [4]) ∧ 3 < (frame 1 0 [4]).one 0
    ∧ fenced.admits .clearWindow .A (frame 1 0 [3]) (.windowNumber 3) ∧ fenced.windows[3] = none
    ∧ fenced.admits .clearWindow .A (frame 1 0 [0]) (.windowNumber 0) ∧ (∀ y ∈ fenced.windows[0], y.owner ≠ .A)
    ∧ fenced.admits .readWindows .A (frame 1 0 []) .empty := by decide +kernel

theorem witness_WindowSpanTaken :
    checkFields .setWindow (frame 1 0 [3, 34, 255, 7, 2, 2, 2]) = .ok (.window 3 8956 4 .any .reportAfter .otherPorts) := by decide +kernel

theorem witness_SettingsTaken :
    ready.admits .setSettings .A (frame 1 0 [9, 99, 3, 8, 0, 0]) (.settings
      [{ setting := .dataWait, value := 99, unit := some .ms100 }, { setting := .noticeLineEnable, value := 0, unit := none }])
    ∧ ready.admits .setSettings .A (frame 1 0 [5, 0, 0]) (.settings [{ setting := .overduePasses, value := 0, unit := none }])
    ∧ ready.quiet ∧ (ready.port .A).lineHolds := by decide +kernel

theorem witness_EndingReturnsAll :
    let r := { request .readBlocks (blocksFrame 1) (blocks 1) with state := .transferring, reachedArm := true }
    (holding r (owned .onCylinder)).plain r := by decide +kernel

/-- Request 0 with the member 1 of its chain waiting behind it. -/
def chained : State :=
  let r := { request .readBlocks (blocksFrame 1 128) (blocks 1) with state := .transferring, reachedArm := true }
  { holding r (owned .onCylinder) with
    table := [r, { request .position (frame 4 0 [0, 9]) (.cylinder 9) with
      rid := 1, tag := 4, state := .waitingChain, pred := some 0 }], nextOrder := 2 }

theorem witness_EndingReturnsAll_chain :
    let r := chained.table[0]!
    let y := chained.table[1]!
    let x : Window := { owner := .B, drive := 0, base := 16, length := 1, access := .any, action := .reportAfter,
                        scope := .allPorts }
    let w := { holding r (owned .onCylinder) with windows := #v[none, some x, some x, none] }
    chained.single r ∧ chained.entry y ∧ y.rid ≠ r.rid ∧ y.port = r.port ∧ y.state = .waitingChain ∧ y.pred = some r.rid
    ∧ (∀ q ∈ chained.table, q.pred = some r.rid → q = y)
    ∧ chained.matching .reportAfter r.port r.drive r.kind r.extent = [] ∧ y.kind.armUsing = true ∧ y.kind.isData = false
    ∧ (chained.drive y.drive).state = .ready ∧ (∀ q ∈ chained.table, q.pred ≠ some y.rid) ∧ y.earlyEnded = false
    ∧ w.single r ∧ (∀ q ∈ w.table, q.pred ≠ some r.rid) ∧ r.reachedArm = true
    ∧ (w.matching .reportAfter r.port r.drive r.kind r.extent).length = 2 := by
  intros; and_intros <;> decide +kernel +revert

theorem witness_EndingReturnsAll_together :
    let start := fun (n : Nat) => { request .startDrive (frame n 0 []) .empty with rid := n, state := .controlWait }
    let stop := { request .stopDrive (frame 2 0 []) .empty with rid := 2, state := .waitingChain, pred := some 1 }
    let s := { ready with table := [start 1, stop, start 3], nextOrder := 4 }
    (∀ r ∈ [start 1, start 3], s.single r ∧ r.reachedArm = false) ∧ ([start 1, start 3].map (·.rid)).Nodup := by decide +kernel

theorem witness_EndingReturnsAll_early :
    let r := { writing with earlyEnded := true }
    let s := fun (x : Option DeferredRec) => holding r fun dr => { owned .onCylinder dr with deferred := Vector.replicate 4 x }
    ∀ x ∈ [none, some default], (s x).entry r ∧ r.earlyEnded = true ∧ r.failure = none
      ∧ ofPort ((s x).drive 0).deferred .A = x := by decide +kernel

theorem witness_SendingOrder :
    let r := { request .readBlocks (blocksFrame 1) (blocks 1) with
      nextBlock := 1, half0 := { Half.empty with state := .draining, blocks := [block 1] } }
    let s := holding r id
    (ready.port .A).online = true ∧ (ready.port .A).sending = none ∧ (s.port .A).wanted = [] ∧ (s.port .A).reports = []
    ∧ (s.port .A).hold = false ∧ s.table = [] ++ r :: [] ∧ r.port = .A ∧ r.dataIn? = some (.dataIn 0 3 0 (block 1)) := by decide +kernel

theorem witness_LinkEventsComplete :
    let r := { request .writeBlocks (blocksFrame 1) (blocks 1) with half0 := Half.wanting 0 }
    let w : WantedFrame := { rid := 0, tag := 3, first := 0, blocks := 1 }
    let s := (holding r id).onPort .A fun pr => { pr with sending := some (.wanted w) }
    ready.powered = true ∧ (ready.port .C).online = false ∧ s.request? w.rid = some r ∧ r.kind ≠ .labelUpdate
    ∧ r.held = none ∧ r.detached = false ∧ (r.half false).state = .wanted ∧ (r.half false).round = w.first / 12 := by decide +kernel

theorem witness_FramesCounted :
    let r := request .readBlocks (blocksFrame 1) (blocks 1)
    let s := holding r id
    ready.powered = true ∧ (ready.port .A).online = true ∧ isBadFrame [6, 0, 0] = true ∧ (octetAt [6, 0, 0] 0).toNat ≠ 3
    ∧ isBadFrame [3] = true ∧ frameCheckGood [3] = false ∧ [(3 : Octet)].length < 4
    ∧ ready.tagged? .A 3 = none ∧ s.tagged? .A 3 = some r ∧ r.takesData = false := by decide +kernel

theorem witness_DataOutPlaced :
    let h := fun (bs : List Block) => { Half.wanting 0 with asked := true, blocks := bs, timer := some 50000 }
    let r := { request .writeBlocks (blocksFrame 2) (blocks 2) with
      half0 := h [], state := .positioned, reachedArm := true, earlyEffective := true }
    let l := { r with half0 := h [block 1], arrived := 1 }
    let s := holding r (owned .onCylinder)
    let t := holding l (owned .onCylinder)
    s.tagged? .A 3 = some r ∧ r.takesData = true ∧ r.earlyEnded = false ∧ r.held = none ∧ r.arrived < r.count
    ∧ (r.half false).state = .wanted ∧ (r.half false).asked = true ∧ (r.half false).round = 0 ∧ r.arrived + 1 ≠ r.count
    ∧ t.tagged? .A 3 = some l ∧ l.takesData = true ∧ (l.half false).state = .wanted ∧ (l.half false).asked = true
    ∧ l.arrived + 1 = l.count ∧ l.earlyEffective = true ∧ l.cancelPending = false ∧ t.plain l ∧ t.quiet
    ∧ l.reachedArm = true ∧ l.state ≠ .queued := by decide +kernel

theorem witness_PortFailureHeld :
    let r := { request .writeBlocks (blocksFrame 2) (blocks 2) with
      half0 := { Half.wanting 0 with asked := true, timer := some 50000 }, state := .transferring, reachedArm := true }
    let s := holding r (owned .onCylinder)
    s.powered = true ∧ (s.port .A).online = true ∧ s.quiet ∧ s.plain r ∧ r.takesData = true ∧ r.held = none
    ∧ r.cancelPending = false ∧ r.state = .transferring ∧ r.arrived < r.count ∧ s.tagged? .A 3 = some r ∧ 1 ≠ r.arrived
    ∧ frameCheckGood [3, 3, 0, 0] = false ∧ (octetAt [3, 3, 0, 0] 0).toNat = 3 ∧ 4 ≤ [(3 : Octet), 3, 0, 0].length
    ∧ s.tagged? .A (octetAt [3, 3, 0, 0] 1).toNat = some r ∧ (r.half (decide ((0 : Fin 2) = 1))).timer ≠ none := by decide +kernel

theorem witness_PortFailureHeld_ended :
    let r := { request .writeBlocks (blocksFrame 2) (blocks 2) with
      half0 := { Half.wanting 0 with asked := true, timer := some 50000 }, reachedArm := true }
    let s := fun (x : Request) => holding x (owned .onCylinder)
    ∀ st ∈ [ReqState.positioned, .seeking, .recalibrating, .sparingWait],
      let x := { r with state := st }
      (s x).powered = true ∧ ((s x).port .A).online = true ∧ (s x).single x ∧ x.takesData = true ∧ x.held = none
      ∧ x.cancelPending = false ∧ x.arrived < x.count ∧ (s x).tagged? .A 3 = some x ∧ (x.half false).timer ≠ none
      ∧ (s x).tagged? .A (octetAt [3, 3, 0, 0] 1).toNat = some x := by
  intros; and_intros <;> decide +kernel +revert

theorem witness_ReadsDelivered :
    let r := { request .readBlocks (blocksFrame 2) (blocks 2) with
      nextBlock := 2, half0 := { Half.empty with state := .filling, blocks := [block 1, block 2] }, readTimer := some 9
      state := .transferring, reachedArm := true }
    let l := { r with blocksDone := 1 }
    let s := (holding r (owned .onCylinder)).onPort .A fun pr => { pr with sending := some (.dataIn 0 3 0 (block 1)) }
    let t := (holding l (owned .onCylinder)).onPort .A fun pr => { pr with sending := some (.dataIn 0 3 1 (block 2)) }
    s.powered = true ∧ r.kind = .readBlocks ∧ r.cancelPending = false
    ∧ (s.port .A).sending = some (.dataIn 0 3 0 (block 1)) ∧ r.blocksDone = 0 ∧ s.plain r ∧ 0 + 1 ≠ r.count ∧ s.quiet
    ∧ r.state ≠ .queued
    ∧ (t.port .A).sending = some (.dataIn 0 3 1 (block 2)) ∧ l.blocksDone = 1 ∧ 1 + 1 = l.count ∧ t.endsQuietly l
    ∧ s.tagged? .A 3 = some r ∧ r.readTimer ≠ none ∧ s.endsQuietly r := by
  intros; and_intros <;> decide +kernel +revert

theorem witness_StartGapExpires :
    let s : State := { ready with gapTimer := some 0, gateOpen := false }
    let t : State := { (readyWith fun dr => { dr with state := .stopped }) with gapTimer := some 0, gateOpen := false, startList := [0] }
    s.powered = true ∧ s.gapTimer ≠ none ∧ s.idle ∧ s.startList = []
    ∧ t.gapTimer ≠ none ∧ t.idle ∧ t.startList = 0 :: [] ∧ (t.drive 0).state = .stopped ∧ (t.drive 0).packSeated = true
    ∧ (t.drive 0).doorClosed = true ∧ (allDrives.filter fun e : Drive => decide ((t.drive e).state = .starting)).length < 2 := by
  intros; and_intros <;> decide +kernel +revert

theorem witness_StartEnds :
    let s := readyWith fun dr => { dr with state := .starting, motor := .accelerating, spinTimer := some 5 }
    s.powered = true ∧ (s.drive 0).state = .starting ∧ s.idle ∧ s.startList = [] ∧ (s.drive 0).spinTimer ≠ none
    ∧ s.unused 0 := by decide +kernel

theorem witness_AtRestStops :
    let f := readyWith fun dr => { dr with state := .faulted, motor := .coasting }
    let s := readyWith fun dr => { dr with state := .stopping, motor := .coasting, packLeft := true }
    let r := { request .stopDrive (frame 1 0 []) .empty with state := .controlWait }
    let t := holding r fun dr => { dr with state := .stopping, motor := .coasting }
    (f.drive 0).motor = .coasting ∧ (f.drive 0).state ≠ .stopping
    ∧ (s.drive 0).motor = .coasting ∧ (s.drive 0).state = .stopping ∧ s.startList = [] ∧ s.idle
    ∧ (∀ q ∈ s.table, q.drive ≠ 0)
    ∧ (t.drive 0).motor = .coasting ∧ (t.drive 0).state = .stopping ∧ t.startList = [] ∧ t.idle ∧ t.plain r ∧ r.drive = 0
    ∧ r.kind = .stopDrive ∧ r.state = .controlWait ∧ r.earlyEffective = false ∧ (∀ q ∈ t.table, q.drive = 0 → q = r)
    ∧ (t.table.map (·.rid)).Pairwise (· < ·) ∧ (t.drive 0).packLeft = false := by decide +kernel

theorem witness_OnCylinderTaken :
    let ld := readyWith fun dr => { dr with state := .loading, arm := .seeking }
    let r := { request .readBlocks (blocksFrame 1) (blocks 1) with state := .seeking }
    let s := holding r (owned .seeking)
    let q := { request .position (frame 1 0 [0, 1]) (.cylinder 1) with state := .seeking, reachedArm := true }
    let t := holding q (owned .seeking)
    let u := readyWith fun dr => { dr with arm := .seeking }
    (ld.drive 0).arm = .seeking ∧ ld.quiet ∧ (ld.drive 0).state = .loading
    ∧ (s.drive 0).arm = .seeking ∧ s.quiet ∧ (s.drive 0).state ≠ .loading ∧ (s.drive 0).owner = some r.rid ∧ s.entry r
    ∧ r.state = .seeking ∧ r.kind ≠ .position ∧ r.op = none
    ∧ (t.drive 0).arm = .seeking ∧ t.quiet ∧ (t.drive 0).owner = some q.rid ∧ t.entry q ∧ q.kind = .position ∧ q.drive = 0
    ∧ t.endsQuietly q
    ∧ (u.drive 0).arm = .seeking ∧ u.quiet ∧ (u.drive 0).owner = none ∧ u.cancelled 0 = [] ∧ u.queue 0 = [] := by
  intros; and_intros <;> decide +kernel +revert

theorem witness_HomeTaken :
    let ld := readyWith fun dr => { dr with state := .loading, arm := .recalibrating }
    let cl := readyWith fun dr => { dr with state := .faulted, arm := .recalibrating, clearing := true }
    let q := { request .recalibrate (frame 1 0 []) .empty with state := .recalibrating, reachedArm := true }
    let t := holding q (owned .recalibrating)
    let u := readyWith fun dr => { dr with arm := .recalibrating }
    (ld.drive 0).arm = .recalibrating ∧ ld.quiet ∧ (ld.drive 0).state = .loading
    ∧ (cl.drive 0).arm = .recalibrating ∧ cl.quiet ∧ (cl.drive 0).state = .faulted ∧ (cl.drive 0).clearing = true
    ∧ (cl.drive 0).owner = none ∧ cl.clearers 0 = [] ∧ cl.queue 0 = []
    ∧ (t.drive 0).arm = .recalibrating ∧ t.quiet ∧ (t.drive 0).state = .ready ∧ (t.drive 0).clearing = false
    ∧ (t.drive 0).owner = some q.rid ∧ q.drive = 0 ∧ (t.drive 0).afterHome = .finish ∧ t.endsQuietly q
    ∧ (u.drive 0).arm = .recalibrating ∧ u.quiet ∧ (u.drive 0).owner = none ∧ u.cancelled 0 = [] ∧ u.queue 0 = [] := by
  intros; and_intros <;> decide +kernel +revert

theorem witness_HomeTaken_clearer :
    let r := { request .clearFault (frame 4 0 []) .empty with state := .controlWait }
    let s := holding r fun dr => { dr with state := .faulted, arm := .recalibrating, clearing := true }
    s.powered = true ∧ (s.drive 0).arm = .recalibrating ∧ s.quiet ∧ (s.drive 0).state = .faulted
    ∧ (s.drive 0).clearing = true ∧ s.clearers 0 = [r] ∧ s.plain r := by decide +kernel

theorem witness_HomeTaken_recovery :
    let r := fun (k : Kind) (o : Operands) =>
      { request k (blocksFrame 1) o with state := .recalibrating, reachedArm := true }
    let s := fun (x : Request) (a : AfterHome) => holding x fun dr =>
      { owned .recalibrating dr with retryMark := true, recalTimer := some 5, afterHome := a }
    (∀ x ∈ [(r .readBlocks (blocks 1), AfterHome.toBlock), (r .readBlocks (blocks 1), .toTarget 0),
        (r .position (.cylinder 0), .toTarget 0)],
      let t := s x.1 x.2
      t.powered = true ∧ (t.drive 0).arm = .recalibrating ∧ t.quiet ∧ (t.drive 0).state = .ready
      ∧ (t.drive 0).clearing = false ∧ (t.drive 0).owner = some x.1.rid ∧ t.entry x.1 ∧ x.1.drive = 0
      ∧ t.pathless x.1.rid ∧ (t.drive 0).afterHome = x.2 ∧ t.endsQuietly x.1)
    ∧ cylOf ((s (r .readBlocks (blocks 1)) .toBlock).leg (r .readBlocks (blocks 1))).track = 1 := by
  intros; and_intros <;> decide +kernel +revert

theorem witness_MovementTimesOut :
    let r := { request .readBlocks (blocksFrame 1) (blocks 1) with state := .seeking, reachedArm := true }
    let q := { r with state := .recalibrating }
    let s := fun (m : Bool) => holding r fun dr => { owned .seeking dr with seekTimer := some 0, retryMark := m }
    let t := holding q fun dr => { owned .recalibrating dr with recalTimer := some 0, retryMark := true }
    (∀ m, (s m).powered = true ∧ ((s m).drive 0).state = .ready ∧ (s m).quiet ∧ ((s m).drive 0).clearing = false
      ∧ ((s m).drive 0).owner = some r.rid ∧ (s m).plain r ∧ ((s m).drive 0).arm = .seeking
      ∧ ((s m).drive 0).seekTimer ≠ none ∧ ((s m).drive 0).retryMark = m)
    ∧ r.drive = 0 ∧ r.op = none ∧ r.phase = .idle ∧ r.state = .seeking
    ∧ t.quiet ∧ t.plain q ∧ (t.drive 0).arm = .recalibrating ∧ (t.drive 0).recalTimer ≠ none
    ∧ (t.drive 0).retryMark = true ∧ (∀ x ∈ t.table, x.drive = 0 → x = q) ∧ (t.table.map (·.rid)).Pairwise (· < ·)
    ∧ (t.drive 0).labelUpdate = none ∧ q.cancelPending = false ∧ q.kind ≠ .synchronize ∧ q.earlyEffective = false := by
  intros; and_intros <;> decide +kernel +revert

/-- The arm owner's seek, retried already, and a movement without owner. -/
def timingOut (owner : Option Nat) : State :=
  crowd { request .readBlocks (blocksFrame 1) (blocks 1) with state := .seeking, reachedArm := true } fun dr =>
    { owned .seeking dr with owner := owner, seekTimer := some 0, retryMark := owner.isSome }

theorem witness_MovementTimesOut_crowd :
    let s := timingOut (some 0)
    let t := timingOut none
    s.powered = true ∧ (s.drive 0).clearing = false ∧ s.fansPlainly 0 ∧ (s.drive 0).arm = .seeking
    ∧ (s.drive 0).seekTimer ≠ none ∧ (s.drive 0).owner = some 0 ∧ s.entry s.table[0]! ∧ (s.drive 0).retryMark = true
    ∧ t.powered = true ∧ (t.drive 0).clearing = false ∧ t.fansPlainly 0 ∧ (t.drive 0).arm = .seeking
    ∧ (t.drive 0).seekTimer ≠ none ∧ (t.drive 0).owner = none ∧ t.cancelled 0 = [] := by decide +kernel

/-- A FAULTED drive with two CLEAR FAULT requests, its clearing under way or not begun. -/
def clearing (on : Bool) : State :=
  let c := fun (n : Nat) (p : Port) =>
    { request .clearFault (frame n 0 []) .empty with rid := n, port := p, state := .controlWait }
  { (readyWith fun dr =>
      { dr with
        state := .faulted, arm := if on then .recalibrating else .idle, recalTimer := if on then some 3 else none
        clearing := on, fault := some default }) with table := [c 1 .A, c 2 .B], nextOrder := 3 }

theorem witness_MovementTimesOut_clearing :
    let s := clearing true
    s.powered = true ∧ (s.drive 0).clearing = true ∧ (s.drive 0).arm = .recalibrating ∧ (s.drive 0).recalTimer ≠ none
    ∧ s.clearsPlainly 0 ∧ (s.clearers 0).length = 2 := by
  intros; and_intros <;> decide +kernel +revert

theorem witness_ClaimMade :
    let r := { reading with state := .positioned, phase := .idle, half0 := Half.empty }
    let s := holding r (owned .onCylinder)
    let full := { r with half0 := { Half.empty with state := .draining } }
    let w := { writing with state := .positioned, phase := .idle }
    let p := holding w fun dr => { owned .onCylinder dr with writeProtect := true }
    let slip := holding full (owned .onCylinder)
    let paths := [s, { s with path0 := .claimed 7 }, { s with path0 := .claimed 7, path1 := .claimed 8 },
      { s with path0 := .reserved 0 }, { s with path0 := .claimed 7, path1 := .reserved 0 }]
    (∀ x ∈ [(s, r), (slip, full), (p, w)] ++ paths.map (·, r), x.1.powered = true ∧ (x.1.drive 0).motor = .atSpeed
      ∧ (x.1.drive 0).state = .ready ∧ (x.1.drive 0).arm = .onCylinder ∧ x.1.quiet ∧ (x.1.drive 0).owner = some x.2.rid
      ∧ x.1.plain x.2 ∧ x.2.drive = 0 ∧ x.2.kind.isData = true ∧ x.2.op = none ∧ x.2.label = none ∧ x.2.format = none
      ∧ x.2.state = .positioned ∧ x.2.phase = .idle
      ∧ 23 = claimSector (x.1.leg x.2).sector ∧ cylOf (x.1.leg x.2).track = (x.1.drive 0).curCyl
      ∧ x.1.settings.autoSpare = false)
    ∧ (s.leg r).writesData = false ∧ r.ready = true ∧ (slip.leg full).writesData = false ∧ full.ready = false
    ∧ (p.leg w).writesData = true ∧ (p.drive 0).writeProtect = true := by
  refine ⟨?_, ?_, ?_, ?_, ?_, ?_, ?_⟩ <;> decide +kernel

theorem witness_ClaimMade_suspect :
    let w := { writing with state := .positioned, phase := .idle }
    let s := { holding w fun dr => { owned .onCylinder dr with suspects := [{ track := 16, tally := 4 }] } with
      settings := { ready.settings with autoSpare := true } }
    s.powered = true ∧ (s.drive 0).motor = .atSpeed ∧ (s.drive 0).state = .ready ∧ (s.drive 0).arm = .onCylinder ∧ s.quiet
    ∧ (s.drive 0).owner = some w.rid ∧ s.plain w ∧ w.kind.isData = true ∧ w.op = none ∧ w.label = none ∧ w.format = none
    ∧ 23 = claimSector (s.leg w).sector ∧ cylOf (s.leg w).track = (s.drive 0).curCyl ∧ (s.drive 0).writeProtect = false
    ∧ w.ready = true ∧ w.kind = .writeBlocks ∧ w.trial = none
    ∧ s.settings.suspectThreshold ≤ tallyOf (s.drive 0).suspects (s.leg w).track := by decide +kernel

set_option maxRecDepth 100000 in
theorem witness_SectorPasses :
    let f := readyWith fun dr => { dr with state := .faulted }
    let r := { request .writeBlocks (blocksFrame 2) (blocks 2) with
      state := .transferring, reachedArm := true, phase := .passing
      half0 := { Half.wanting 0 with state := .full, blocks := [block 1, block 2] } }
    let q := { request .readBlocks (blocksFrame 2) (blocks 2) with
      state := .transferring, reachedArm := true, phase := .passing, half0 := { Half.empty with state := .filling } }
    let c := { q with phase := .claimed }
    let s := fun (x : Request) => holding x (owned .onCylinder)
    (f.drive 0).motor = .atSpeed ∧ f.quiet ∧ (f.drive 0).state = .faulted
    ∧ (∀ x ∈ [r, q, c], ((s x).drive 0).motor = .atSpeed ∧ (s x).quiet ∧ ((s x).drive 0).state = .ready
      ∧ ((s x).drive 0).owner = some x.rid ∧ (s x).plain x ∧ x.drive = 0 ∧ x.op = none ∧ x.label = none ∧ x.format = none
      ∧ x.state = .transferring ∧ x.cancelPending = false ∧ x.held = none ∧ x.trial = none ∧ x.failed = []
      ∧ ((s x).drive 0).writeFault = false ∧ ((s x).leg x).sector = 0 ∧ x.nextBlock + 1 < x.count
      ∧ x.nextBlock + 1 ≠ 12 * (x.round + 1)
      ∧ ((s x).leg { x with nextBlock := x.nextBlock + 1 }).track = ((s x).leg x).track
      ∧ idCondition (((s x).drive 0).found 0 asRecorded).id 1 0 0 ((s x).leg x).expect = none
      ∧ readCondition (((s x).drive 0).found 0 asRecorded) 1 0 0 ((s x).leg x).expect = none)
    ∧ r.kind = .writeBlocks ∧ r.current.state = .full ∧ q.kind = .readBlocks ∧ q.current.state = .filling := by
  intros; and_intros <;> decide +kernel +revert

set_option maxRecDepth 100000 in
/-- The legs of the further clauses: last blocks, CHECK BLOCKS, WRITE AND CHECK, a trial, and a leg that write fault meets. -/
theorem witness_SectorPasses_more :
    let cb := { reading with kind := .checkBlocks }
    let cm := { writing with kind := .checkBlocks, compare := true }
    let ck := { pairing with checking := true, writePos := 2, half0 := { pairing.half0 with blocks := [zeroBlock, zeroBlock] } }
    let last := fun (r : Request) => { r with nextBlock := 1, writePos := 1 }
    let tr := { reading with trial := some (16, 0) }
    let wf := { writing with phase := .claimed }
    let wfs := holding wf fun dr => { owned .onCylinder dr with writeFault := true }
    (∀ x ∈ [writing, reading, cb, cm, pairing, ck, tr], (passing x).onSector 0 x ∧ (passing x).onPath0 x
      ∧ (passing (last x)).onSector 0 (last x) ∧ x.op = none ∧ x.label = none ∧ x.format = none ∧ x.failed = []
      ∧ x.nextBlock + 1 < x.count ∧ (last x).nextBlock + 1 = (last x).count ∧ x.nextBlock + 1 ≠ 12 * (x.round + 1)
      ∧ ((passing x).leg x).sector = 0 ∧ ((passing (last x)).leg (last x)).sector = 1)
    ∧ (∀ x ∈ [writing, reading, cb, cm, pairing, ck], x.trial = none
      ∧ ((passing x).leg { x with nextBlock := x.nextBlock + 1 }).track = ((passing x).leg x).track
      ∧ readCondition (((passing x).drive 0).found 0 asRecorded) 1 0 0 ((passing x).leg x).expect = none
      ∧ readCondition (((passing x).drive 0).found 1 asRecorded) 1 0 1 ((passing x).leg x).expect = none)
    ∧ cb.ready = true ∧ cm.compare = true ∧ (((passing cm).drive 0).found 0 asRecorded).data.block ≠ cm.blockToWrite
    ∧ (((passing ck).drive 0).found 0 asRecorded).data.block = ck.blockToWrite ∧ ck.nextBlock + 1 < ck.writePos
    ∧ ((passing pairing).drive 0).writeFault = false ∧ pairing.writePos + 1 ≤ min (12 * pairing.round + 11) (pairing.count - 1)
    ∧ min (12 * pairing.round + 11) (pairing.count - 1) < (last pairing).writePos + 1
    ∧ tr.trial = some ((blockOf tr.addr + tr.nextBlock) / 24, 0) ∧ lookupHome ((passing tr).drive 0).map.entries 16 = none
    ∧ ((passing tr).drive 0).labelUpdate = none ∧ 8 < (freeIndices (addEntry [] (.assign 16 0 .adopted))).length
    ∧ (blockOf tr.addr + tr.nextBlock + 1) / 24 = 16
    ∧ readCondition (((passingAt 560 tr).drive 0).found 0
        { id := some (makeId (altTrack 0) 0 stAlternate (some 16) false), data := none }) 560 0 0 (.alternate 16) = none
    ∧ wfs.powered = true ∧ (wfs.drive 0).owner = some wf.rid ∧ wfs.entry wf ∧ wf.phase = .claimed ∧ wf.pendingEnding = none
    ∧ (wfs.leg wf).writesData = true ∧ (wfs.leg wf).sector = 0 ∧ (wfs.drive 0).writeFault = true ∧ wfs.fansPlainly 0 := by
  intros; and_intros <;> decide +kernel +revert

/-- A read and a write of 40 blocks at block `i`, the current half as its leg needs it, the other half in a state. -/
def readingAt (i : Nat) (other : HalfState) : Request :=
  { moving .readBlocks (blocksFrame 40) (blocks 40) with
    nextBlock := i, blocksDone := i - 3
    half0 := { Half.empty with state := .filling, blocks := List.replicate i (block 1) }
    half1 := { Half.empty with state := other, round := 1 } }
def writingAt (i : Nat) (other : HalfState) : Request :=
  { moving .writeBlocks (blocksFrame 40) (blocks 40) with
    nextBlock := i, blocksDone := i, arrived := 24
    half0 := { Half.wanting 0 with state := .full, blocks := List.replicate 12 (block 1) }
    half1 := { Half.wanting 1 with state := other } }

set_option maxRecDepth 100000 in
/-- The end of a round, its next block on the same track, the other half ready or not. -/
theorem witness_SectorPasses_rounds :
    let pair := { pairing with count := 40, checking := true, writePos := 1 }
    (∀ x ∈ [readingAt 11 .empty, readingAt 11 .draining, writingAt 11 .full, writingAt 11 .wanted],
      (passing x).onSector 0 x ∧ (passing x).onPath0 x ∧ x.op = none ∧ x.label = none ∧ x.format = none ∧ x.trial = none
      ∧ x.failed = [] ∧ x.nextBlock + 1 < x.count
      ∧ (x.kind = .readBlocks ∧ x.current.state = .filling ∧ x.blocksDone ≤ x.nextBlock
        ∨ x.kind = .writeBlocks ∧ x.current.state = .full)
      ∧ x.nextBlock + 1 = 12 * (x.round + 1)
      ∧ ((passing x).leg { x with nextBlock := 12 }).track = ((passing x).leg x).track
      ∧ ((passing x).leg { x with nextBlock := 12 }).sector = 12 ∧ ((passing x).drive 0).writeFault = false
      ∧ readCondition (((passing x).drive 0).found 11 asRecorded) 1 0 11 ((passing x).leg x).expect = none)
    ∧ (passing pair).onSector 0 pair ∧ (passing pair).onPath0 pair ∧ pair.writePos ≤ pair.nextBlock + 1
    ∧ pair.nextBlock + 1 < pair.count := by
  intros; and_intros <;> decide +kernel +revert

set_option maxRecDepth 100000 in
/-- The end of a leg: the next home track of the cylinder, and the next cylinder. -/
theorem witness_SectorPasses_legs :
    let at_ := fun (h : Nat) (x : Request) => { x with addr := { cyl := 1, head := h, sector := 18 } }
    let s := fun (h : Nat) (x : Request) => (passing x).onDrive 0 fun dr => { dr with head := h }
    (∀ h ∈ [0, 15], ∀ y ∈ [readingAt 5 .empty, writingAt 5 .full],
      let x := at_ h y
      let t := s h x
      t.onSector 0 x ∧ t.onPath0 x ∧ x.nextBlock + 1 ≠ 12 * (x.round + 1) ∧ (t.leg x).sector = 23
      ∧ (t.leg { x with nextBlock := 6 }).track = 16 + h + 1 ∧ (t.leg x).track = 16 + h
      ∧ (blockOf x.addr + x.nextBlock + 1) / 24 = 16 + h + 1 ∧ (t.leg { x with nextBlock := 6 }).sector = 0
      ∧ readCondition ((t.drive 0).found 23 asRecorded) 1 h 23 (t.leg x).expect = none
      ∧ (t.drive 0).writeProtect = false ∧ (t.drive 0).writeFault = false ∧ t.settings.autoSpare = false)
    ∧ cylOf 17 = 1 ∧ cylOf 32 ≠ 1 := by
  intros; and_intros <;> decide +kernel +revert

set_option maxRecDepth 100000 in
/-- A head switch onto a track of a pack now protected, and onto a suspect track. -/
theorem witness_SectorPasses_switched :
    let x := { writingAt 5 .full with addr := { cyl := 1, head := 0, sector := 18 } }
    let p := (passing x).onDrive 0 fun dr => { dr with writeProtect := true }
    let q := { (passing x).onDrive 0 fun dr => { dr with suspects := [{ track := 17, tally := 4 }] } with
      settings := { ready.settings with autoSpare := true } }
    p.onSector 0 x ∧ p.onPath0 x ∧ (p.drive 0).writeProtect = true ∧ q.onSector 0 x ∧ q.onPath0 x
    ∧ (q.drive 0).writeProtect = false ∧ q.settings.autoSpare = true
    ∧ q.settings.suspectThreshold ≤ tallyOf (q.drive 0).suspects 17 := by
  intros; and_intros <;> decide +kernel +revert

set_option maxRecDepth 100000 in
/-- Map disagreements: a home that names a free alternate, one that names none, and one already on trial. -/
theorem witness_SectorPasses_trials :
    let c := fun (x : Request) (cyl head : Nat) (y : IdField) =>
      let t := (passingAt cyl x).onDrive 0 fun dr => { dr with head := head }
      idCondition ((t.drive 0).found 0 { id := some y, data := none }).id cyl head 0 (t.leg x).expect
    let tr := { reading with trial := some (16, 3) }
    (∀ x ∈ [reading, writing, tr], (passing x).onSector 0 x ∧ (passing x).onPath0 x ∧ x.kind.isData = true ∧ x.raw = false)
    ∧ c reading 1 0 (makeId 16 0 stDefective (some (altTrack 3)) false) = some (.disagree (some (altTrack 3)))
    ∧ c writing 1 0 (makeId 16 0 stDefective (some (altTrack 3)) false) = some (.disagree (some (altTrack 3)))
    ∧ altIndex? (altTrack 3) = some 3 ∧ 3 ∈ freeIndices ((passing reading).drive 0).map.entries ∧ reading.trial = none
    ∧ c writing 1 0 (makeId 16 0 stUnassigned none false) = some (.disagree none)
    ∧ c tr 560 3 (makeId (altTrack 3) 0 stGood none false) = some (.disagree none) := by
  intros; and_intros <;> decide +kernel +revert

theorem witness_LevelsTaken :
    let st := readyWith fun dr => { dr with state := .stopped }
    let e := readyWith fun dr => { dr with state := .stopped, packSeated := false, doorClosed := false }
    (State.reset.drive 0).state = .absent ∧ spindle.present = true ∧ (ready.drive 0).state ≠ .absent ∧ ready.quiet
    ∧ ready.recording 0 = none ∧ (0 : Drive) ∉ ready.startList ∧ e.quiet ∧ (e.drive 0).packSeated = false
    ∧ (0 : Drive) ∉ e.startList ∧ st.quiet ∧ (st.drive 0).state = .stopped ∧ (st.drive 0).doorClosed = true
    ∧ (st.drive 0).packSeated = true ∧ (ready.drive 0).state = .ready ∧ ready.unused 0
    ∧ (ready.drive 0).unit.owner = none ∧ (ready.drive 0).doorClosed = true ∧ (ready.drive 0).packSeated = true := by decide +kernel

theorem witness_LevelsTaken_recording :
    let s := { crowd writing (owned .onCylinder) with path0 := .claimed 0 }
    s.powered = true ∧ (s.drive 0).state ≠ .absent ∧ s.recording 0 = some writing ∧ s.fansPlainly 0
    ∧ (s.drive 0).state = .ready ∧ (s.drive 0).doorClosed = true ∧ (s.drive 0).unit.owner = none := by decide +kernel

theorem witness_LevelsTaken_states :
    let s := fun (st : DriveState) => crowd reading fun dr => { owned .onCylinder dr with state := st }
    let h := { readyWith fun dr => { dr with state := .stopping, motor := .coasting } with startList := [0] }
    let l := fun (door pack : Bool) =>
      { readyWith fun dr => { dr with state := .stopped, motor := .off, doorClosed := door, packSeated := pack } with
        startList := [2, 0, 4] }
    (∀ st ∈ [DriveState.ready, .starting, .loading], (s st).powered = true ∧ ((s st).drive 0).state = st
      ∧ ((s st).drive 0).unit.owner = none ∧ (s st).fansPlainly 0 ∧ ((s st).drive 0).doorClosed = true
      ∧ ((s st).drive 0).packSeated = true)
    ∧ (∀ on, ((clearing on).drive 0).state = .faulted ∧ ((clearing on).drive 0).clearing = on ∧ (clearing on).clearsPlainly 0
      ∧ ((clearing on).drive 0).doorClosed = true ∧ ((clearing on).drive 0).packSeated = true)
    ∧ h.quiet ∧ (h.drive 0).state = .stopping ∧ (h.drive 0).doorClosed = true ∧ (h.drive 0).packSeated = true
    ∧ ∀ x ∈ [l false true, l true false], x.quiet ∧ (0 : Drive) ∈ x.startList ∧ (x.drive 0).state = .stopped
      ∧ x.gateOpen = true ∧ (allDrives.filter fun e => decide ((x.drive e).state = .starting)).length < 2 := by
  intros; and_intros <;> decide +kernel +revert

theorem witness_EstimateReachesSector : 16799 < 16800 ∧ 23 < 24 ∧ transferEstimate 16799 0 568 23 ≤ 58820 := by decide

/-- A free arm with three requests queued: by score, by passes, by chain precedence. -/
def choosing (f : Request → Request) : State :=
  let r := { request .position (frame 1 0 [0, 9]) (.cylinder 9) with rid := 0 }
  { ready with table := [r, f { r with rid := 1, addr := { cyl := 568, head := 0, sector := 0 } }, { r with rid := 2 }]
               nextOrder := 3 }

theorem witness_EstimateReachesSector_choice :
    ((choosing id).decision? 0).map (·.rid) = some 1
    ∧ ((choosing fun r => { r with passes := 12, addr := { cyl := 0, head := 0, sector := 0 } }).decision? 0).map (·.rid) = some 1
    ∧ ((choosing fun r => { r with chainPrecedence := true, priority := 0 }).decision? 0).map (·.rid) = some 1
    ∧ ready.decision? 0 = none
    ∧ ready.target (request .position (frame 1 0 [0, 9]) (.cylinder 9)) = (9, none)
    ∧ ready.target (request .readBlocks (blocksFrame 1) (blocks 1)) = (1, some 0) := by decide +kernel

theorem witness_IdleStepIsOneMicrosecond : State.reset.pending = [] ∧ State.reset.powered = true := ⟨rfl, rfl⟩

/-- A label with every index of the spare map in use. -/
def fullLabel : LabelImage :=
  { serial := 2 ^ 32 - 1, generation := 65535, entries := (List.range 128).map fun k => .assign (8832 + k) k .auto }

theorem witness_LabelRoundTrip :
    fullLabel.serial < 2 ^ 32 ∧ fullLabel.generation < 2 ^ 16 ∧ fullLabel.entries.length ≤ 128
    ∧ (∀ e ∈ fullLabel.entries, match e with
      | .assign h k _ => h < 8960 ∧ k < 128
      | .retire k => k < 128)
    ∧ noClash fullLabel.entries = true := by
  refine ⟨by decide +kernel, by decide +kernel, by decide +kernel, fun e he => ?_, by decide +kernel⟩
  obtain ⟨k, hk, rfl⟩ := List.mem_map.mp he
  have := List.mem_range.mp hk
  exact ⟨by omega, this⟩

theorem witness_WrittenBlockReadsBack :
    let v := { factorySector 30 with id := makeId 1 6 stGood none true }
    let pk : Pack := { sectors := [(30, v)] }
    pk.wf = true ∧ 30 < 218496 ∧ idCondition (pk.read 30).id 0 1 6 .home = none := by decide +kernel

set_option maxRecDepth 100000 in
/-- Operations under way: each step at a sector the clauses ask for. -/
theorem witness_AlternateChosen :
    let op : SpareOp := { step := .readSource, home := 16, source := none, alt := 0, attempt := 3, origin := .field,
                          pos := 0, revs := 0 }
    let r := fun (st : OpStep) (pos : Nat) (src : Option Nat) =>
      { moving .spareTrack (frame 4 0 [0, 1, 0]) (.track { cyl := 1, head := 0, sector := 0 }) with
        state := .sparing, op := some { op with step := st, pos := pos, source := src } }
    let s := fun (c : Nat) (q : Request) => { passingAt c q with buffer := { SpareBuffer.initial with holder := some 0 } }
    let z := fun (q : Request) =>
      { s 1 q with buffer := { holder := some 0, waiters := [], slots := List.replicate 24 (.data zeroBlock) } }
    (∀ x ∈ [(1, r .readSource 0 none), (560, r .writeAlternate 0 none), (560, r .checkAlternate 0 none),
        (1, r .rewriteHome 23 none), (1, r .checkHome 23 (some 0)), (560, r .clearAlternate 23 (some 0))],
      (s x.1 x.2).onSector 0 x.2 ∧ x.2.earlyEnded = false ∧ (s x.1 x.2).onPath0 x.2
      ∧ ((s x.1 x.2).drive 0).labelUpdate = none ∧ ((s x.1 x.2).drive 0).writeFault = false)
    ∧ (s 1 (r .readSource 0 none)).buffer.slots.getD 0 .void = .unread
    ∧ (let x := ((s 1 (r .readSource 0 none)).drive 0).found 0 asRecorded
       idCondition x.id 1 0 0 .any = none ∧ x.id.void ≠ 1 ∧ x.data.good = true)
    ∧ 8 < (freeIndices (addEntry [] (.retire 0))).length
    ∧ idCondition (((s 560 (r .checkAlternate 0 none)).drive 0).found 0 asRecorded).id 560 0 0 (.alternate 16) ≠ none
    ∧ idCondition (((s 560 (r .checkAlternate 0 none)).drive 0).found 0 asRecorded).id 560 0 0 (.alternate 16) ≠ some .seek
    ∧ 8 < (freeIndices (addEntry (dropHome [] 16) (.assign 16 0 .field))).length
    ∧ (let x := ((z (r .checkHome 23 (some 0))).drive 0).found 23 asRecorded
       (z (r .checkHome 23 (some 0))).onSector 0 (r .checkHome 23 (some 0))
       ∧ idCondition x.id 1 0 23 (.plain stGood) = none ∧ x.data.good = true
       ∧ x.data.block = ((z (r .checkHome 23 (some 0))).buffer.slots.getD 23 .void).block)
    ∧ cylOf (altTrack 0) ≠ 1 := by
  intros; and_intros <;> decide +kernel +revert

set_option maxRecDepth 100000 in
/-- A sparing asked for: the buffer taken, no alternate free, one free. -/
theorem witness_AlternateChosen_asked :
    let r := { writing with state := .positioned, phase := .idle, addr := { cyl := 1, head := 0, sector := 3 } }
    let s := holding r (owned .onCylinder)
    let f := holding r fun dr =>
      { owned .onCylinder dr with map := { dr.map with entries := (List.range 128).map .retire } }
    s.entry r ∧ s.pathless r.rid ∧ r.kind.isData = true ∧ r.pendingEnding = none ∧ f.entry r ∧ f.pathless r.rid
    ∧ s.buffer.holder = none ∧ s.buffer.waiters = [] ∧ chooseAlternate (s.drive 0).map.entries 16 = some 0
    ∧ chooseAlternate (f.drive 0).map.entries 16 = none ∧ (blockOf r.addr + r.nextBlock) / 24 = 16
    ∧ (r.halfSlots 16).getD 0 .void = .unread ∧ (r.halfSlots 16).getD 3 .void ≠ .unread := by
  intros; and_intros <;> decide +kernel +revert

set_option maxRecDepth 100000 in
/-- A format at each kind of sector, of a home track and of an alternate whose index is retired. -/
theorem witness_AlternateChosen_formats :
    let r := fun (c h : Nat) (un : Bool) (f : FormatJob) =>
      { moving .formatTrack (frame 4 0 [0, 1, 0, 1]) (.format { cyl := c, head := h, sector := 0 } un) with format := some f }
    let s := fun (c h : Nat) (x : Request) => (passingAt c x).onDrive 0 fun dr =>
      { dr with head := h, map := { dr.map with entries := [.retire 2] } }
    (∀ x ∈ [(1, 0, false), (560, 2, true)], ∀ on, ∀ i ∈ [5, 23],
      let q := r x.1 x.2.1 x.2.2 { checking := on, pos := i, attempt := 8 }
      let t := s x.1 x.2.1 q
      let found := (t.drive 0).found i asRecorded
      t.onSector 0 q ∧ t.onPath0 q ∧ q.op = none ∧ q.label = none ∧ (t.drive 0).writeFault = false
      ∧ (t.drive 0).labelUpdate = none
      ∧ idCondition found.id x.1 x.2.1 i (.plain (if x.2.2 then stUnassigned else stGood)) = none
      ∧ found.id.void = 0 ∧ found.data.good = true ∧ found.data.block = zeroBlock)
    ∧ altIndex? 16 = none ∧ altIndex? 8962 = some 2 ∧ .retire 2 ∈ [MapEntry.retire 2] ∧ 8 < (freeIndices []).length
    ∧ { zeroData with check := 0 }.good = false := by
  intros; and_intros <;> decide +kernel +revert

set_option maxRecDepth 100000 in
/-- The ends of an operation's legs, a new choice, and the end of an automatic sparing. -/
theorem witness_AlternateChosen_steps :
    let op : SpareOp := { step := .readSource, home := 16, source := none, alt := 0, attempt := 2, origin := .auto,
                          pos := 23, revs := 0 }
    let r := fun (k : Kind) (st : OpStep) (src : Option Nat) =>
      { moving k (blocksFrame 20) (blocks 20) with state := .sparing, op := some { op with step := st, source := src } }
    let s := fun (c : Nat) (q : Request) =>
      { passingAt c q with
        buffer := { holder := some 0, waiters := [6], slots := List.replicate 23 (Slot.data (block 5)) ++ [Slot.unread] } }
    let good := makeId (altTrack 0) 23 stAlternate (some 16) false
    (∀ x ∈ [(1, r .spareTrack .readSource none), (560, r .writeBlocks .writeAlternate none),
        (1, r .returnAlternate .writeHome (some 0)), (560, r .writeBlocks .checkAlternate none),
        (1, r .writeBlocks .rewriteHome none), (1, r .writeAndCheck .rewriteHome none)],
      (s x.1 x.2).onSector 0 x.2 ∧ x.2.earlyEnded = false ∧ (s x.1 x.2).onPath0 x.2 ∧ x.2.kind ≠ .position
      ∧ ((s x.1 x.2).drive 0).labelUpdate = none ∧ (s x.1 x.2).buffer.holder = some x.2.rid ∧ x.2.label = none
      ∧ x.2.format = none)
    ∧ (s 1 (r .spareTrack .readSource none)).buffer.slots.getD 23 .void = .unread
    ∧ (∀ x ∈ (s 1 (r .spareTrack .readSource none)).buffer.slots.set 23 (Slot.data zeroBlock), x ≠ Slot.unread)
    ∧ (let x := ((s 1 (r .spareTrack .readSource none)).drive 0).found 23 asRecorded
       idCondition x.id 1 0 23 .any = none ∧ x.id.void ≠ 1 ∧ x.data.good = true)
    ∧ idCondition good 560 0 23 (.alternate 16) = none ∧ { zeroData with check := 0 }.good = false
    ∧ chooseAlternate (addEntry [] (.retire 0)) 16 = some 16
    ∧ 8 < (freeIndices (addEntry (dropHome [] 16) (.assign 16 0 .auto))).length
    ∧ (let x := r .writeBlocks .rewriteHome none
       max x.nextBlock (min (min (12 * x.round + 11) (x.count - 1)) (16 * 24 + 23 - blockOf x.addr) + 1) = 12) := by
  intros; and_intros <;> decide +kernel +revert

/-- The top indices of a map retired, its check armed. -/
def retiredTop (n : Nat) (more : List MapEntry) (dr : DriveRec) : DriveRec :=
  { dr with map := { dr.map with entries := more ++ (List.range n).map fun k => .retire (128 - n + k), armed := true } }

set_option maxRecDepth 100000 in
/-- R132: a map change that leaves 8 alternates free posts SPARES_LOW to the four ports and turns the check off; 9, neither. -/
theorem test_sparesLow :
    let s := fun (n : Nat) => (readyWith (retiredTop n [])).changeMap 0 fun es => addEntry es (.retire 0)
    (∀ p ∈ [Port.A, .B, .C, .D],
      ((s 119).port p).notices.map (fun n => (n.kind, n.subject)) = [(.sparesLow, .drive 0)] ∧ ((s 118).port p).notices = [])
    ∧ ((s 119).drive 0).map.armed = false ∧ ((s 118).drive 0).map.armed = true := by decide +kernel

set_option maxRecDepth 100000 in
/-- Each map change where it leaves 8 alternates free and the check is armed, and a round turned after a sparing. -/
theorem witness_AlternateChosen_spares :
    let op := fun (st : OpStep) (src : Option Nat) =>
      ({ step := st, home := 16, source := src, alt := 0, attempt := 2, origin := .auto, pos := 23, revs := 0 } : SpareOp)
    let r := fun (k : Kind) (st : OpStep) (src : Option Nat) =>
      { moving k (blocksFrame 40) (.data { cyl := 1, head := 0, sector := 12 } 40) with
        state := .sparing, op := some (op st src), readTimer := some 77 }
    let s := fun (c : Nat) (n : Nat) (more : List MapEntry) (x : Request) =>
      { (passingAt c x).onDrive 0 (retiredTop n more) with
        buffer := { holder := some 0, waiters := [], slots := List.replicate 24 (.data zeroBlock) } }
    let f := { moving .formatTrack (frame 4 0 [0, 1, 0, 1]) (.format { cyl := 560, head := 2, sector := 0 } true) with
      format := some { checking := true, pos := 23, attempt := 1 } }
    (∀ x ∈ [(560, 119, [], r .writeBlocks .checkAlternate none), (1, 119, [], r .writeBlocks .rewriteHome none),
        (1, 120, [.assign 16 0 .field], r .returnAlternate .checkHome (some 0)), (560, 120, [.retire 2], f)],
      let t := s x.1 x.2.1 x.2.2.1 x.2.2.2
      t.onSector 0 x.2.2.2 ∧ t.onPath0 x.2.2.2 ∧ (t.drive 0).labelUpdate = none ∧ (t.drive 0).map.armed = true)
    ∧ (freeIndices (addEntry ((readyWith (retiredTop 119 [])).drive 0).map.entries (.retire 0))).length = 8
    ∧ (freeIndices (addEntry ((readyWith (retiredTop 119 [])).drive 0).map.entries (.assign 16 0 .auto))).length = 8
    ∧ chooseAlternate (addEntry ((readyWith (retiredTop 119 [])).drive 0).map.entries (.retire 0)) 16 = some 1
    ∧ (freeIndices ((readyWith (retiredTop 120 [])).drive 0).map.entries).length = 8
    ∧ (let x := r .writeBlocks .rewriteHome none
       (s 1 119 [] x).buffer.holder = some x.rid ∧ x.label = none ∧ x.format = none ∧ 12 < x.count
       ∧ max x.nextBlock (min (min (12 * x.round + 11) (x.count - 1)) (16 * 24 + 23 - blockOf x.addr) + 1)
          = 12 * (x.round + 1)) := by
  intros; and_intros <;> decide +kernel +revert

set_option maxRecDepth 100000 in
/-- A trial that passes with 9 alternates free. -/
theorem witness_SectorPasses_spares :
    let r := { reading with trial := some (16, 1) }
    let read : SurfaceRead :=
      { id := some (makeId (altTrack 1) 0 stAlternate (some 16) false), data := some (makeData (block 5)) }
    let s := (passingAt 560 r).onDrive 0 fun dr => { retiredTop 119 [] dr with head := 1 }
    let l := s.leg r
    s.onSector 0 r ∧ r.op = none ∧ r.label = none ∧ r.format = none ∧ r.failed = [] ∧ r.kind = .readBlocks ∧ r.raw = false
    ∧ lookupHome (s.drive 0).map.entries 16 = none ∧ (s.drive 0).labelUpdate = none ∧ (s.drive 0).map.armed = true
    ∧ (freeIndices (addEntry (s.drive 0).map.entries (.assign 16 1 .adopted))).length = 8
    ∧ r.current.state = .filling ∧ r.nextBlock + 1 < r.count ∧ r.nextBlock + 1 ≠ 12 * (r.round + 1)
    ∧ (blockOf r.addr + r.nextBlock) / 24 = 16 ∧ (blockOf r.addr + r.nextBlock + 1) / 24 = 16 ∧ (l.sector + 1) % 24 = 1
    ∧ readCondition ((s.drive 0).found l.sector read) (s.drive 0).curCyl (s.drive 0).head l.sector (.alternate 16) = none := by
  intros; and_intros <;> decide +kernel +revert

set_option maxRecDepth 100000 in
/-- A load at the last label sector, its map with 8 alternates free. -/
theorem witness_LabelRoundTrip_spares :
    let m : LabelImage := { serial := 7, generation := 2, entries := (List.range 120).map fun k => .retire k }
    let b := labelBlocks m
    let s := readyWith fun dr => { dr with
      state := .loading, load := { LoadRec.initial with step := .read, sector := 2, passing := true
                                                        blocks := [b.1, b.2.1] } }
    let found := (s.drive 0).found 2 { id := none, data := some (makeData b.2.2) }
    s.powered = true ∧ (s.drive 0).motor = .atSpeed ∧ (s.drive 0).state = .loading ∧ (s.drive 0).load.step = .read
    ∧ (s.drive 0).load.passing = true ∧ (s.drive 0).load.sector = 2 ∧ readCondition found 568 0 2 .label = none
    ∧ readLabel b.1 b.2.1 found.data.block = some m
    ∧ (freeIndices (sortBy MapEntry.key m.entries)).length = 8 := by
  intros; and_intros <;> decide +kernel +revert

set_option maxRecDepth 100000 in
/-- A label write at each step, and a load at the last label sector. -/
theorem witness_LabelRoundTrip_sectors :
    let j : LabelJob := { image := { serial := 7, generation := 2, entries := [] }, step := 0, attempt := 8, back := [] }
    let b := labelBlocks j.image
    let r := fun (i : Nat) (back : List Block) =>
      { moving .writeLabel (frame 4 0 []) .empty with label := some { j with step := i, back := back } }
    let ld := { readyWith fun dr => { dr with
      state := .loading, load := { LoadRec.initial with step := .read, sector := 2, passing := true
                                                        blocks := [b.1, b.2.1] } } with startList := [] }
    (∀ i ∈ [0, 1, 2, 3, 4, 5], (passingAt 568 (r i [])).onSector 0 (r i []) ∧ (passingAt 568 (r i [])).onPath0 (r i [])
      ∧ (r i []).earlyEnded = false ∧ (r i []).op = none ∧ ((passingAt 568 (r i [])).drive 0).writeFault = false)
    ∧ (∀ i ∈ [0, 1, 2], readCondition (((passingAt 568 (r 0 [])).drive 0).found i asRecorded) 568 0 i .label = none)
    ∧ readLabel b.1 b.2.1 b.2.2 = some j.image ∧ zeroBlock = b.2.2
    ∧ readLabel zeroBlock zeroBlock zeroBlock ≠ some j.image ∧ (passingAt 568 (r 5 [])).settings.retryLimit ≤ j.attempt
    ∧ ld.powered = true ∧ (ld.drive 0).motor = .atSpeed ∧ (ld.drive 0).state = .loading ∧ (ld.drive 0).load.step = .read
    ∧ (ld.drive 0).load.passing = true ∧ (ld.drive 0).load.sector = 2
    ∧ readCondition ((ld.drive 0).found 2 asRecorded) 568 0 2 .label = none
    ∧ 8 < (freeIndices (sortBy MapEntry.key j.image.entries)).length := by
  intros; and_intros <;> decide +kernel +revert

set_option maxRecDepth 100000 in
/-- A block that fails in each way, and one that is read good after failing. -/
theorem witness_SuspectTallies_failures :
    let id := makeId 16 0 stGood none false
    let header : SurfaceRead := { id := some { id with check := 0 }, data := none }
    let bad : SurfaceRead := { id := none, data := some { zeroData with check := 0 } }
    let void : SurfaceRead := { id := some (makeId 16 0 stGood none true), data := none }
    let seek : SurfaceRead := { id := some (makeId 32 0 stGood none false), data := none }
    let c := fun (x : Request) (y : SurfaceRead) =>
      readCondition (((passing x).drive 0).found 0 y) 1 0 0 ((passing x).leg x).expect
    let ck := { pairing with checking := true }
    let rec_ := { reading with failed := [(0, true)] }
    (∀ x ∈ [reading, { reading with retries := 3 }, { reading with retries := 8 }, { reading with seekChecks := 2 }, ck, rec_],
      (passing x).onSector 0 x ∧ (passing x).onPath0 x ∧ x.earlyEnded = false ∧ x.op = none ∧ x.label = none
      ∧ x.format = none ∧ x.trial = none)
    ∧ c reading header = some .header ∧ c reading bad = some .data ∧ c reading void = some .void
    ∧ c reading seek = some .seek ∧ reading.failed = [] ∧ (passing reading).fansPlainly 0
    ∧ c ck asRecorded = none ∧ (((passing ck).drive 0).found 0 asRecorded).data.block ≠ ck.blockToWrite
    ∧ (passing ck).settings.autoSpare = false ∧ ck.retries < (passing ck).settings.retryLimit
    ∧ rec_.current.state = .filling ∧ rec_.nextBlock + 1 < rec_.count ∧ rec_.nextBlock + 1 ≠ 12 * (rec_.round + 1)
    ∧ ((passing rec_).leg { rec_ with nextBlock := 1 }).track = ((passing rec_).leg rec_).track
    ∧ c rec_ asRecorded = none := by
  intros; and_intros <;> decide +kernel +revert

set_option maxRecDepth 100000 in
/-- A header check on write legs, a second failure of a block, and a check leg with AUTO_SPARE on. -/
theorem witness_SuspectTallies_more :
    let auto := fun (s : State) => { s with settings := { s.settings with autoSpare := true } }
    let header := { makeId 16 0 stGood none false with check := 0 }
    let wc := { pairing with checking := true, retries := 8 }
    let again := { reading with kind := .checkBlocks, failed := [(0, false), (4, true)], retries := 3 }
    (∀ x ∈ [writing, { writing with retries := 8 }, { pairing with retries := 8 }, wc, again],
      (passing x).onSector 0 x ∧ (passing x).onPath0 x ∧ (auto (passing x)).onSector 0 x ∧ (auto (passing x)).onPath0 x
      ∧ x.earlyEnded = false ∧ x.op = none ∧ x.label = none ∧ x.format = none ∧ x.trial = none ∧ x.kind.isData = true)
    ∧ idCondition header 1 0 0 .home = some .header
    ∧ readCondition (((passing wc).drive 0).found 0 asRecorded) 1 0 0 ((passing wc).leg wc).expect = none
    ∧ (((passing wc).drive 0).found 0 asRecorded).data.block ≠ wc.blockToWrite
    ∧ (auto (passing wc)).settings.autoSpare = true ∧ (passing wc).settings.retryLimit ≤ wc.retries := by
  intros; and_intros <;> decide +kernel +revert

theorem witness_SuspectTallies :
    let ss : List Suspect := (List.range 16).map fun i => { track := i, tally := 15 - i % 3 }
    (ss.map (·.track)).Nodup ∧ ss.length ≤ 16 ∧ 0 ∈ ss.map (·.track) ∧ 99 ∉ ss.map (·.track) ∧ ss.length = 16
    ∧ (([] : List Suspect).map (·.track)).Nodup := by decide +kernel

theorem witness_NumbersAgree :
    addressValid { cyl := 568, head := 15, sector := 23 } = true ∧ altIndex? 9087 = some 127 := by decide +kernel

end Sys2Proof.Tests
end

/-! ### Every command completes -/

namespace Sys2Proof.Proofs
open Sys2Proof Sys2Proof.Machine Sys2Proof.Laws

/-- Every command but POWER_ON answers through the power gate. -/
theorem exec_eq_live {c : Instr} (s : State) (h : ∀ x, c ≠ .powerOn x) : ∃ t, exec c s = s.live t := by
  cases c with
  | powerOn x => exact absurd rfl (h x)
  | _ => exact ⟨_, rfl⟩

/-- A string without power lets nothing through the gate (log entry 6). -/
theorem live_unpowered {s : State} (t : State) (h : s.powered = false) : s.live t = .next s := by simp [State.live, h]

/-- Settles O4: POWER_ON answers a next state of its own, every other command one through the power gate. -/
theorem everyCommandCompletes : Obligations.EveryCommandCompletes := by
  intro c s
  by_cases hc : ∃ x, c = .powerOn x
  · obtain ⟨x, rfl⟩ := hc
    exact ⟨⟨_, rfl⟩, fun _ h => absurd rfl (h x)⟩
  · obtain ⟨t, ht⟩ := exec_eq_live s (not_exists.1 hc)
    exact ⟨⟨_, ht⟩, fun hp _ => ht.trans (live_unpowered t hp)⟩

/-! ### Numbers and addresses (R2) -/

theorem addressValid_iff (a : Addr) : addressValid a = true ↔ a.cyl ≤ 568 ∧ a.head ≤ 15 ∧ a.sector ≤ 23 := by
  simp [addressValid, and_assoc]

theorem blockOf_addrOf (n : Nat) : blockOf (addrOf n) = n := by
  simp only [blockOf, addrOf, trackOf, cylOf, headOf]
  omega

theorem addrOf_blockOf {a : Addr} (hh : a.head ≤ 15) (hs : a.sector ≤ 23) : addrOf (blockOf a) = a := by
  obtain ⟨c, h, sec⟩ := a
  simp only [blockOf, addrOf, trackOf, cylOf, headOf, Addr.mk.injEq]
  simp only at hh hs
  omega

theorem altTrack_eq (k : Nat) : altTrack k = 8960 + k := by
  simp only [altTrack, trackOf]
  omega

theorem altIndex?_eq_some {t k : Nat} : altIndex? t = some k ↔ k < 128 ∧ t = 8960 + k := by
  unfold altIndex?
  split
  · simp only [Option.some.injEq]
    omega
  · simp only [reduceCtorEq, false_iff]
    omega

/-- Settles O54: division and remainder by 24 and by 16 take numbers apart as the addresses put them together. -/
theorem numbersAgree : Obligations.NumbersAgree := by
  refine ⟨fun n hn => ⟨blockOf_addrOf n, ?_⟩, fun a ha => ?_, fun k hk => ⟨?_, ?_, ?_⟩, fun t k h => ?_⟩
  · rw [addressValid_iff]
    simp only [addrOf, cylOf, headOf]
    omega
  · obtain ⟨hc, hh, hs⟩ := (addressValid_iff a).1 ha
    refine ⟨addrOf_blockOf hh hs, ?_⟩
    simp only [blockOf, trackOf]
    omega
  · exact altIndex?_eq_some.2 ⟨hk, altTrack_eq k⟩
  · rw [altTrack_eq, cylOf]
    omega
  · rw [altTrack_eq, headOf]
    omega
  · obtain ⟨hk, ht⟩ := altIndex?_eq_some.1 h
    exact ⟨(altTrack_eq k).trans ht.symm, hk⟩

/-! ### A written block (R10, R12) -/

/-- A sector that passes the tests of R13 passes each of them. -/
theorem idCondition_eq_none {f : IdField} {cyl head sector : Nat} {e : Expect} :
    idCondition f cyl head sector e = none ↔ f.wellFormed = true ∧ f.cyl.toNat = cyl
      ∧ (f.head.toNat = head ∧ f.sector.toNat = sector) ∧ stateCondition f e = none := by
  unfold idCondition
  split_ifs <;> grind

/-- A well-formed ID field's void flag is 0 or 1 (R8). -/
theorem void_of_wellFormed {f : IdField} (h : f.wellFormed = true) : f.void = 0 ∨ f.void = 1 := by
  simp only [IdField.wellFormed, Bool.and_eq_true, Bool.or_eq_true, beq_iff_eq] at h
  exact h.1.2

/-- An ID field recorded anew with the void flag 0 is well formed as the one it replaces was (R8, R10). -/
theorem wellFormed_cleared {f : IdField} (h : f.wellFormed = true) :
    (IdField.sealed { f with void := 0 }).wellFormed = true := by
  simp only [IdField.wellFormed, Bool.and_eq_true, beq_iff_eq] at h ⊢
  obtain ⟨⟨⟨_, hstate⟩, _⟩, hlink⟩ := h
  exact ⟨⟨⟨rfl, hstate⟩, rfl⟩, hlink⟩

/-- The ID field that a data write leaves passes the tests that the one it found passed, its void flag 0 (R10). -/
theorem overwrite_id {x : Sector} {cyl head sector : Nat} {e : Expect} (b : Block)
    (h : idCondition x.id cyl head sector e = none) :
    idCondition (overwrite x x b).id cyl head sector e = none ∧ (overwrite x x b).id.void = 0 := by
  obtain ⟨hw, hrest⟩ := idCondition_eq_none.1 h
  by_cases hv : x.id.void = 1
  · simp only [overwrite, hv, if_true]
    exact ⟨idCondition_eq_none.2 ⟨wellFormed_cleared hw, hrest⟩, rfl⟩
  · simp only [overwrite, hv, if_false]
    exact ⟨h, (void_of_wellFormed hw).resolve_right hv⟩

/-- The data field recorded for a block is read good (R12). -/
theorem makeData_good (b : Block) : (makeData b).good = true := by simp [DataField.good, makeData]

/-- Settles O59, from what `Pack.write` does and what a data write leaves of the ID field. -/
theorem writtenBlockReadsBack : Obligations.WrittenBlockReadsBack := by
  intro pk n cyl head sector e b hwf hn hid q
  obtain ⟨hsame, hother, hkept⟩ := Pack_write_spec (n := n) (x := overwrite (pk.read n) (pk.read n) b) hwf
  obtain ⟨hcond, hvoid⟩ := overwrite_id b hid
  have hdata : (q.read n).data = makeData b := by rw [hsame]; rfl
  have hqid : (q.read n).id = (overwrite (pk.read n) (pk.read n) b).id := by rw [hsame]
  refine ⟨?_, by rw [hdata]; rfl, hqid ▸ hvoid, hother, hkept hn⟩
  simp [readCondition, hqid, hcond, hvoid, hdata, makeData_good]

end Sys2Proof.Proofs

/-! ### Cuts of a recording leg (R17) -/

namespace Sys2Proof.Proofs
open Sys2Proof Sys2Proof.Machine Sys2Proof.Laws

/-- The check code a cut leaves is never the right one. -/
theorem wrongCheck_ne (n : Nat) (right : Word16) : wrongCheck n right ≠ right := by
  unfold wrongCheck
  split
  · intro h
    have : right ^^^ right ^^^ 1#16 = right ^^^ right := by rw [BitVec.xor_assoc, h]
    simp at this
  · assumption

theorem cutData_check_ne (n : Nat) : (cutData n).check ≠ checkCode (cutData n).block := by
  simp only [cutData]
  exact wrongCheck_ne n _

theorem cutIdField_check_ne (n : Nat) : (cutIdField n).check ≠ checkCode (cutIdField n).covered :=
  wrongCheck_ne n _

/-- A cut sector has a field whose check code does not agree with its octets: the ID field's where the cut fell there, else
the data field's. -/
theorem cutSector_check_ne (n : Nat) (both : Bool) (old new : Sector) :
    (cutSector n both old new).data.check ≠ checkCode (cutSector n both old new).data.block
      ∨ (cutSector n both old new).id.check ≠ checkCode (cutSector n both old new).id.covered := by
  unfold cutSector
  split
  · exact .inr (cutIdField_check_ne n)
  · exact .inl (cutData_check_ne n)

section
variable {s : State} {d : Drive} {r : Request}

/-- The leg that records at a drive is its owner's, passing under the heads, and a data write. -/
theorem recording_eq_some : s.recording d = some r ↔ s.owner? d = some r ∧ r.phase = .passing ∧ (s.leg r).writesData = true := by
  unfold State.recording
  split
  · split <;> simp_all <;> grind
  · simp_all

/-- Where no leg records, a cut changes nothing. -/
theorem cutLeg_of_none (h : s.recording d = none) : s.cutLeg d = s := by
  unfold State.recording at h
  unfold State.cutLeg
  cases ho : s.owner? d with
  | none => rfl
  | some r =>
    rw [ho] at h
    have hr : ¬(r.phase = .passing ∧ (s.leg r).writesData = true) := fun hp => by simp [hp] at h
    simp only [hr, if_false]

/-- A recording leg whose sector passes its ID tests leaves it cut; one whose sector fails them is not recording it. -/
theorem cutLeg_of_some (h : s.recording d = some r) :
    let n := (s.drive d).underHeads (s.leg r).sector
    let old := (s.drive d).recorded n
    (writeCondition (s.drive d) (s.leg r) old ≠ none → s.cutLeg d = s)
      ∧ (writeCondition (s.drive d) (s.leg r) old = none → ∃ both new,
        s.cutLeg d = { s.onDrive d fun dr => dr.record n (cutSector s.freeCount both old new) with
          freeCount := s.freeCount + 1 }) := by
  obtain ⟨ho, hp⟩ := recording_eq_some.1 h
  unfold State.cutLeg
  simp only [ho, hp]
  constructor
  · intro hc
    obtain ⟨c, hc⟩ := Option.ne_none_iff_exists'.1 hc
    simp [hc]
  · intro hc
    rw [hc]
    exact ⟨_, _, rfl⟩

/-- A pack as a cut leaves it meets `packCut`: nothing recorded where no leg records. -/
theorem packCut_of_none (h : s.recording d = none) : s.packCut d (s.drive d).pack :=
  ⟨fun _ => rfl, id, fun r p hr => by rw [h] at hr; cases hr⟩

/-- The sector that a recording leg cuts is left with a wrong check code, where it passes its ID tests. -/
theorem packCut_of_some {both : Bool} {new : Sector} (h : s.recording d = some r) :
    let n := (s.drive d).underHeads (s.leg r).sector
    let old := (s.drive d).recorded n
    (writeCondition (s.drive d) (s.leg r) old ≠ none → s.packCut d (s.drive d).pack)
      ∧ (writeCondition (s.drive d) (s.leg r) old = none →
        s.packCut d ((s.drive d).record n (cutSector s.freeCount both old new)).pack) := by
  intro n old
  have hold : ∀ p, (s.drive d).pack = some p → old = p.read n := fun p hp => by simp [old, DriveRec.recorded, hp]
  constructor
  · intro hc
    refine ⟨fun _ => rfl, id, fun q p hq hp hwf => ?_⟩
    obtain rfl : r = q := Option.some.inj (h.symm.trans hq)
    rw [hold p hp] at hc
    have hcut : decide (writeCondition (s.drive d) (s.leg r) (p.read n) = none) = false := decide_eq_false hc
    refine ⟨p, hp, hwf, fun _ _ => rfl, fun h => ?_, fun _ => rfl⟩
    rw [hcut, Bool.false_and] at h
    cases h
  · intro hc
    refine ⟨fun hn => by simp [h] at hn, fun hn => by simp [DriveRec.record, hn], fun q p hq hp hwf => ?_⟩
    obtain rfl : r = q := Option.some.inj (h.symm.trans hq)
    rw [hold p hp] at hc
    by_cases hn : n < 218496
    · obtain ⟨hsame, hother, hkept⟩ := Pack_write_spec (n := n) (x := cutSector s.freeCount both old new) hwf
      refine ⟨_, by simp [DriveRec.record, hp, Config.packBlocks, hn], hkept hn, hother, fun _ => ?_, fun hcut => ?_⟩
      · rw [hsame]
        exact cutSector_check_ne _ _ _ _
      · rw [hc, decide_eq_true hn] at hcut
        simp at hcut
    · refine ⟨p, by simp [DriveRec.record, hp, Config.packBlocks, hn], hwf, fun _ _ => rfl, fun hcut => ?_, fun _ => rfl⟩
      rw [Bool.and_eq_true] at hcut
      exact absurd (of_decide_eq_true hcut.2) hn

/-- The state with the pack of a drive replaced and the count of free values taken. -/
def repacked (s : State) (d : Drive) (pk : Option Pack) (k : Nat) : State :=
  { s.onDrive d fun dr => { dr with pack := pk } with freeCount := k }

@[simp] theorem repacked_drive_same (pk : Option Pack) (k : Nat) :
    (repacked s d pk k).drive d = { s.drive d with pack := pk } :=
  drive_onDrive_same (s := s) fun dr => { dr with pack := pk }

theorem repacked_drive_other {e : Drive} (pk : Option Pack) (k : Nat) (h : e ≠ d) :
    (repacked s d pk k).drive e = s.drive e :=
  drive_onDrive_other (s := s) (fun dr => { dr with pack := pk }) h

/-- A drive's own pack put back changes nothing. -/
theorem repacked_self : repacked s d (s.drive d).pack s.freeCount = s := by
  unfold repacked
  rw [onDrive_id]
  rfl

/-- What a cut does: the drive's pack becomes one that `packCut` allows, and a free value may be taken. -/
theorem cutLeg_spec (s : State) (d : Drive) : ∃ pk k, s.cutLeg d = repacked s d pk k ∧ s.packCut d pk := by
  cases h : s.recording d with
  | none => exact ⟨_, _, (cutLeg_of_none h).trans repacked_self.symm, packCut_of_none h⟩
  | some r =>
    obtain ⟨hskip, hcut⟩ := cutLeg_of_some h
    by_cases hc : writeCondition (s.drive d) (s.leg r)
        ((s.drive d).recorded ((s.drive d).underHeads (s.leg r).sector)) = none
    · obtain ⟨both, new, he⟩ := hcut hc
      exact ⟨_, s.freeCount + 1, he, (packCut_of_some (both := both) (new := new) h).2 hc⟩
    · exact ⟨_, _, (hskip hc).trans repacked_self.symm, (packCut_of_some (both := false) (new := default) h).1 hc⟩

end

/-- Settles O9, from what a cut sector holds and what the cut of a leg does. -/
theorem cutLeavesWrongCheck : Obligations.CutLeavesWrongCheck := by
  refine ⟨cutSector_check_ne, fun s d => ?_⟩
  obtain ⟨pk, k, ht, hpk⟩ := cutLeg_spec s d
  simp only [ht, repacked_drive_same, true_and]
  refine ⟨rfl, fun e he => repacked_drive_other pk k he, hpk, fun h => ?_⟩
  rw [← ht, cutLeg_of_none h]

/-! ### What a recording leg depends on -/

section
variable {s t : State} {d : Drive}

/-- A request is found through the table and the label updates alone. -/
theorem request?_congr (ht : t.table = s.table) (hl : ∀ e : Drive, (t.drive e).labelUpdate = (s.drive e).labelUpdate)
    (n : Nat) : t.request? n = s.request? n := by
  simp only [State.request?, ht, hl]

theorem leg_congr {r : Request} (hm : ∀ e : Drive, (t.drive e).map = (s.drive e).map) : t.leg r = s.leg r := by
  simp only [State.leg, hm]

/-- Whether a leg records depends on the table, the label updates, the maps and the drive's owner alone. -/
theorem recording_congr (ht : t.table = s.table) (ho : (t.drive d).owner = (s.drive d).owner)
    (hl : ∀ e : Drive, (t.drive e).labelUpdate = (s.drive e).labelUpdate)
    (hm : ∀ e : Drive, (t.drive e).map = (s.drive e).map) : t.recording d = s.recording d := by
  simp only [State.recording, State.owner?, ho, request?_congr ht hl, leg_congr hm]

/-- A cut at a drive that reads the same finds the same. -/
theorem packCut_congr {pk : Option Pack} (ht : t.table = s.table) (hd : t.drive d = s.drive d)
    (hl : ∀ e : Drive, (t.drive e).labelUpdate = (s.drive e).labelUpdate)
    (hm : ∀ e : Drive, (t.drive e).map = (s.drive e).map) : t.packCut d pk ↔ s.packCut d pk := by
  simp only [State.packCut, recording_congr ht (congrArg (·.owner) hd) hl hm, hd, leg_congr hm]

end

/-! ### Every drive's leg cut (R17) -/

section
variable {s : State} {d : Drive}

/-- A drive's pack replaced leaves every other field of every drive as it was. -/
theorem repacked_drive (e : Drive) (pk : Option Pack) (k : Nat) :
    ∃ q, (repacked s d pk k).drive e = { s.drive e with pack := q } := by
  by_cases he : e = d
  · subst he
    exact ⟨pk, repacked_drive_same pk k⟩
  · exact ⟨(s.drive e).pack, repacked_drive_other pk k he⟩

theorem packCut_repacked {e : Drive} {pk q : Option Pack} {k : Nat} (h : e ≠ d) :
    (repacked s d pk k).packCut e q ↔ s.packCut e q := by
  refine packCut_congr rfl (repacked_drive_other pk k h) (fun x => ?_) (fun x => ?_) <;>
    · obtain ⟨y, hy⟩ := repacked_drive (s := s) (d := d) x pk k
      rw [hy]

/-- Cuts made at a list of drives: at each as `packCut` allows, nothing anywhere else. -/
theorem foldl_cutLeg_spec {ds : List Drive} (hn : ds.Nodup) (s : State) :
    let t := ds.foldl State.cutLeg s
    t = { s with drives := t.drives, freeCount := t.freeCount }
      ∧ (∀ d ∈ ds, t.drive d = { s.drive d with pack := (t.drive d).pack } ∧ s.packCut d (t.drive d).pack)
      ∧ ∀ d, d ∉ ds → t.drive d = s.drive d := by
  induction ds generalizing s with
  | nil => exact ⟨rfl, nofun, fun _ _ => rfl⟩
  | cons a ds ih =>
    obtain ⟨ha, hn⟩ := List.nodup_cons.1 hn
    obtain ⟨pk, k, hs, hpk⟩ := cutLeg_spec s a
    simp only [List.foldl_cons, hs]
    obtain ⟨ht, hin, hout⟩ := ih hn (repacked s a pk k)
    refine ⟨?_, fun d hd => ?_, fun d hd => ?_⟩
    · rw [ht]
      rfl
    · by_cases hda : d = a
      · subst hda
        simp only [hout d ha, repacked_drive_same]
        exact ⟨trivial, hpk⟩
      · have := hin d ((List.mem_cons.1 hd).resolve_left hda)
        rwa [packCut_repacked hda, repacked_drive_other pk k hda] at this
    · obtain ⟨hda, hds⟩ := not_or.1 (mt List.mem_cons.2 hd)
      rw [hout d hds, repacked_drive_other pk k hda]

theorem mem_allDrives (d : Drive) : d ∈ allDrives := by
  revert d
  decide

theorem nodup_allDrives : allDrives.Nodup := by decide

/-- Every drive's leg cut: each pack as `packCut` allows, nothing else changed. -/
theorem forDrives_cutLeg_spec (s : State) :
    let t := forDrives State.cutLeg s
    t = { s with drives := t.drives, freeCount := t.freeCount }
      ∧ ∀ d, t.drive d = { s.drive d with pack := (t.drive d).pack } ∧ s.packCut d (t.drive d).pack := by
  obtain ⟨ht, hin, _⟩ := foldl_cutLeg_spec nodup_allDrives s
  exact ⟨ht, fun d => hin d (mem_allDrives d)⟩

/-- Where no leg records at any drive, nothing is cut. -/
theorem forDrives_cutLeg_of_none (h : ∀ d : Drive, s.recording d = none) : forDrives State.cutLeg s = s := by
  unfold forDrives
  induction allDrives with
  | nil => rfl
  | cons a ds ih => rw [List.foldl_cons, cutLeg_of_none (h a), ih]

end

/-- Settles O8: loss of power is the cut of every drive's leg, and the power gone. -/
theorem powerLossKeepsPacks : Obligations.PowerLossKeepsPacks := by
  intro s hp
  have hnone := forDrives_cutLeg_of_none (s := s)
  have hdown : exec .powerLoss s = .next { forDrives State.cutLeg s with powered := false } := live_powered hp
  obtain ⟨ht, hd⟩ := forDrives_cutLeg_spec s
  generalize forDrives State.cutLeg s = t at *
  refine ⟨_, hdown, ?_, hd, fun h => by rw [hnone h]⟩
  rw [ht]

end Sys2Proof.Proofs

/-! ### Requests leaving the table (R63 step 4) -/

namespace Sys2Proof.Proofs
open Sys2Proof Sys2Proof.Machine Sys2Proof.Laws

/-- Nothing is held for a place of the arrival order: no path, no place in the preference list, no buffer, no turn at it. -/
def lacks (s : State) (n : Nat) : Prop :=
  s.path0.holds n = false ∧ s.path1.holds n = false ∧ n ∉ s.preference ∧ s.buffer.holder ≠ some n ∧ n ∉ s.buffer.waiters

/-- The table without the requests of a list. -/
def tableWithout (gone : List Request) (l : List Request) : List Request :=
  l.filter fun q => !(gone.any fun r => r.rid == q.rid)

/-- The requests `gone`, all of drive `d`, have left the table and given back what they held; beyond that the states differ
at most in the ports and in the deferred records of the drive. -/
structure Shed (d : Drive) (gone : List Request) (s t : State) : Prop where
  frame : t = { s with
    drives := t.drives, ports := t.ports, table := tableWithout gone s.table, path0 := t.path0, path1 := t.path1
    preference := t.preference, segments := t.segments, buffer := t.buffer }
  segments : ∀ i : Fin 8, t.segments[i] = s.segments[i].filter fun n => !(gone.any fun r => r.rid == n)
  lacks : ∀ n, Proofs.lacks s n ∨ (∃ r ∈ gone, r.rid = n) → Proofs.lacks t n
  others : ∀ x : Drive, x ≠ d → t.drive x = s.drive x
  own : t.drive d = { s.drive d with deferred := (t.drive d).deferred }

section
variable {d : Drive} {g g' : List Request} {s t u : State} {r q : Request}

theorem mem_tableWithout {l : List Request} : q ∈ tableWithout g l ↔ q ∈ l ∧ ∀ r ∈ g, r.rid ≠ q.rid := by
  simp [tableWithout]

theorem tableWithout_nil (l : List Request) : tableWithout [] l = l := by simp [tableWithout]

theorem tableWithout_append (l : List Request) : tableWithout (g ++ g') l = tableWithout g' (tableWithout g l) := by
  simp only [tableWithout, List.filter_filter, List.any_append, Bool.not_or, Bool.and_comm]

theorem tableWithout_singleton (l : List Request) : tableWithout [r] l = l.filter (·.rid != r.rid) := by
  simp only [tableWithout, List.any_cons, List.any_nil, Bool.or_false]
  congr 1
  funext q
  rw [bne, Bool.beq_comm]

theorem filter_true' (x : Option Nat) : x.filter (fun _ => !(([] : List Request).any fun _ => true)) = x := by
  cases x <;> rfl

namespace Shed

theorem table (h : Shed d g s t) : t.table = tableWithout g s.table := by rw [h.frame]

theorem windows (h : Shed d g s t) : t.windows = s.windows := by rw [h.frame]

theorem owner (h : Shed d g s t) : (t.drive d).owner = (s.drive d).owner := by rw [h.own]

theorem labelUpdate (h : Shed d g s t) (e : Drive) : (t.drive e).labelUpdate = (s.drive e).labelUpdate := by
  by_cases he : e = d
  · rw [he, h.own]
  · rw [h.others e he]

theorem refl (d : Drive) (s : State) : Shed d [] s s where
  frame := by rw [tableWithout_nil]
  segments i := (filter_true' _).symm
  lacks n h := h.resolve_right (by simp)
  others _ _ := rfl
  own := rfl

theorem trans (h : Shed d g s t) (h' : Shed d g' t u) : Shed d (g ++ g') s u where
  frame := by
    have ht := h.frame
    rw [tableWithout_append, ← h.table]
    conv_lhs => rw [h'.frame]
    congr 1 <;> rw [ht]
  segments i := by
    rw [h'.segments, h.segments, Option.filter_filter]
    simp only [List.any_append, Bool.not_or]
  lacks n hn := by
    apply h'.lacks
    rcases hn with hn | ⟨r, hr, rfl⟩
    · exact .inl (h.lacks n (.inl hn))
    · rcases List.mem_append.1 hr with hr | hr
      · exact .inl (h.lacks _ (.inr ⟨r, hr, rfl⟩))
      · exact .inr ⟨r, hr, rfl⟩
  others x hx := (h'.others x hx).trans (h.others x hx)
  own := by
    rw [h'.own]
    conv_lhs => rw [h.own]

/-- A request whose record was replaced before it left has left all the same. -/
theorem of_withRequest (h : Shed d [q] (s.withRequest q) t) (hid : q.rid = r.rid) : Shed d [r] s t where
  frame := by
    have ht := h.frame
    rw [tableWithout_singleton, State.withRequest, filter_map_rid, hid] at ht
    rw [tableWithout_singleton]
    exact ht
  segments i := by
    have := h.segments i
    simp only [List.any_cons, hid] at this ⊢
    exact this
  lacks n hn := h.lacks n (hn.imp id fun hr => ⟨q, List.mem_singleton_self q, by simpa [hid] using hr⟩)
  others := h.others
  own := h.own

/-- A port changed is a change a `Shed` allows. -/
theorem onPort (d : Drive) (s : State) (p : Port) (f : PortRec → PortRec) : Shed d [] s (s.onPort p f) where
  frame := by rw [tableWithout_nil]; rfl
  segments i := (filter_true' _).symm
  lacks n h := h.resolve_right (by simp)
  others _ _ := rfl
  own := rfl

/-- A deferred record of the drive changed is a change a `Shed` allows. -/
theorem onDeferred (d : Drive) (s : State) (f : DriveRec → Vector (Option DeferredRec) 4) :
    Shed d [] s (s.onDrive d fun dr => { dr with deferred := f dr }) where
  frame := by rw [tableWithout_nil]; rfl
  segments i := (filter_true' _).symm
  lacks n h := h.resolve_right (by simp)
  others x hx := drive_onDrive_other _ hx
  own := by rw [drive_onDrive_same]

end Shed

/-- A request gives back its paths, segments, buffer and arm, and its entry is freed: the ending's step 4 but for the folding
of its failure. -/
def givenBack (s : State) (r : Request) : State :=
  let s := ((s.leavePaths r.rid).freeSegmentsOf r.rid).leaveBuffer r.rid
  let s := if (s.drive r.drive).owner = some r.rid then s.onDrive r.drive DriveRec.loseOwner else s
  { s with table := s.table.filter (·.rid != r.rid) }

/-- A request that folds no failure just gives back what it held. -/
theorem leaveTable_unfolded (hr : s.request? r.rid = some r) (hk : r.kind ≠ .labelUpdate)
    (he : r.earlyEnded = false ∨ r.failure = none) : s.leaveTable r.rid = givenBack s r := by
  simp only [State.leaveTable, hr, hk, if_false, givenBack]
  rcases he with he | he
  · cases r.failure <;> simp [he]
  · simp [he]

/-- An early-ended write folds its failure, and then gives back what it held. -/
theorem leaveTable_early {e : Ending} (hr : s.request? r.rid = some r) (hk : r.kind ≠ .labelUpdate)
    (he : r.earlyEnded = true) (hf : r.failure = some e) : s.leaveTable r.rid = givenBack (s.fold r e) r := by
  simp only [State.leaveTable, hr, hk, if_false, givenBack, hf, he, if_true]

/-! #### Paths handed on (R96) -/

theorem pathless_handOn0 {m : Nat} (h : s.pathless m) : s.handOn0.pathless m := by
  rw [handOn0_eq]
  exact ⟨handed_holds h.2.2, h.2.1, fun hm => h.2.2 (List.mem_of_mem_tail hm)⟩

theorem pathless_handOn1 {m : Nat} (h : s.pathless m) : s.handOn1.pathless m := by
  rw [handOn1_eq]
  exact ⟨h.1, handed_holds h.2.2, fun hm => h.2.2 (List.mem_of_mem_tail hm)⟩

theorem pathless_releasePath {m : Nat} (n : Nat) (h : s.pathless m) : (s.releasePath n).pathless m := by
  have h0 : (if s.path0.holds n then s.handOn0 else s).pathless m := by
    split
    · exact pathless_handOn0 h
    · exact h
  unfold State.releasePath
  generalize (if s.path0.holds n then s.handOn0 else s) = u at h0
  dsimp only
  split
  · exact pathless_handOn1 h0
  · exact h0

/-- A request that leaves the paths has none and waits for none, and neither has any that had none before. -/
theorem pathless_leavePaths {m n : Nat} (h : m = n ∨ s.pathless m) : (s.leavePaths n).pathless m := by
  rcases h with rfl | h
  · obtain ⟨a, b, l, heq, _, _, _, _, hout, _⟩ :=
      releasePath_eq { s with preference := s.preference.filter (· != m) } m
    unfold State.leavePaths
    rw [heq]
    exact hout (by simp)
  · exact pathless_releasePath n ⟨h.1, h.2.1, fun hm => h.2.2 (List.mem_of_mem_filter hm)⟩

theorem leavePaths_eq (s : State) (n : Nat) : ∃ a b l,
    s.leavePaths n = { s with path0 := a, path1 := b, preference := l }
      ∧ ∀ m, m = n ∨ s.pathless m → a.holds m = false ∧ b.holds m = false ∧ m ∉ l := by
  obtain ⟨a, b, l, heq, _⟩ := releasePath_eq { s with preference := s.preference.filter (· != n) } n
  have hl : s.leavePaths n = { s with path0 := a, path1 := b, preference := l } := heq
  refine ⟨a, b, l, hl, fun m hm => ?_⟩
  have := pathless_leavePaths hm
  rw [hl] at this
  exact this

/-- A request of a drive without an arm owner gives back its paths, segments, buffer and entry alone. -/
theorem givenBack_eq (ho : (s.drive r.drive).owner = none) : ∃ a b l v,
    givenBack s r = { s with
      table := s.table.filter (·.rid != r.rid), path0 := a, path1 := b, preference := l, segments := v
      buffer := { s.buffer with
        holder := if s.buffer.holder = some r.rid then none else s.buffer.holder
        waiters := s.buffer.waiters.filter (· != r.rid) } }
      ∧ (∀ i : Fin 8, v[i] = if s.segments[i] = some r.rid then none else s.segments[i])
      ∧ ∀ m, m = r.rid ∨ s.pathless m → a.holds m = false ∧ b.holds m = false ∧ m ∉ l := by
  obtain ⟨a, b, l, hl, hless⟩ := leavePaths_eq s r.rid
  obtain ⟨v, hv, hseg⟩ := freeSegmentsOf_eq (s.leavePaths r.rid) r.rid
  refine ⟨a, b, l, v, ?_, fun i => by rw [hseg, hl], hless⟩
  have hown : (({ s.leavePaths r.rid with segments := v }.leaveBuffer r.rid).drive r.drive).owner ≠ some r.rid := by
    rw [hl]
    show (s.drive r.drive).owner ≠ some r.rid
    simp [ho]
  simp only [givenBack, hv, hown, if_false]
  rw [hl]
  rfl

/-- So the request is shed, the drives and ports as they were. -/
theorem givenBack_shed (ho : (s.drive r.drive).owner = none) : Shed r.drive [r] s (givenBack s r)
    ∧ (∀ e, (givenBack s r).drive e = s.drive e) ∧ ∀ p, (givenBack s r).port p = s.port p := by
  obtain ⟨a, b, l, v, heq, hseg, hless⟩ := givenBack_eq ho
  rw [heq]
  refine ⟨⟨by rw [tableWithout_singleton], fun i => ?_, fun n hn => ?_, fun x _ => rfl, rfl⟩, fun _ => rfl, fun _ => rfl⟩
  · show v[i] = _
    rw [hseg]
    cases s.segments[i] with
    | none => rfl
    | some m =>
      by_cases hm : r.rid = m
      · simp [Option.filter, hm]
      · simp [Option.filter, hm, Ne.symm hm]
  · have hn' : n = r.rid ∨ lacks s n := by
      rcases hn with h | ⟨q, hq, rfl⟩
      · exact .inr h
      · exact .inl (by rw [List.mem_singleton.1 hq])
    obtain ⟨h0, h1, h2⟩ := hless n (hn'.imp_right fun ⟨h0, h1, hpref, _⟩ => ⟨h0, h1, hpref⟩)
    refine ⟨h0, h1, h2, ?_, fun hm => ?_⟩
    · show (if s.buffer.holder = some r.rid then none else s.buffer.holder) ≠ some n
      rcases hn' with rfl | ⟨-, -, -, hholder, -⟩
      · split <;> simp_all
      · split
        · simp
        · exact hholder
    · obtain ⟨hm, hne⟩ := List.mem_filter.1 hm
      rcases hn' with rfl | ⟨-, -, -, -, hwaits⟩
      · simp at hne
      · exact hwaits hm

end

/-! ### Requests met one by one in a fan-out (R35, R38) -/

section
variable {d : Drive} {s t : State} {r : Request} {e : Ending}

/-- The requests of a drive without an arm owner leave one by one, each for itself: places rise, no label update stands in
the table, no chain waits behind them, and they meet no report-after window. -/
structure Fans (s : State) (d : Drive) : Prop where
  rises : (s.table.map (·.rid)).Pairwise (· < ·)
  ownerless : (s.drive d).owner = none
  kinds : ∀ q ∈ s.table, q.kind ≠ .labelUpdate
  unchained : ∀ q ∈ s.table, q.drive = d → ∀ x ∈ s.table, x.pred ≠ some q.rid
  unmatched : ∀ q ∈ s.table, q.drive = d → q.reachedArm = true →
    s.matching .reportAfter q.port q.drive q.kind q.extent = []

/-- In a table of rising places a place names one request. -/
theorem eq_of_rid_eq {l : List Request} (h : (l.map (·.rid)).Pairwise (· < ·)) {a b : Request} (ha : a ∈ l) (hb : b ∈ l)
    (hab : a.rid = b.rid) : a = b := by
  have hinj := List.inj_on_of_nodup_map (h.imp fun hlt => Nat.ne_of_lt hlt)
  exact hinj ha hb hab

theorem matching_congr {a : Action} {p : Port} {k : Kind} {x : Option (Nat × Nat)} (h : t.windows = s.windows) :
    t.matching a p d k x = s.matching a p d k x := by simp only [State.matching, h]

namespace Fans

theorem entry (h : Fans s d) (hr : r ∈ s.table) : s.entry r :=
  ⟨hr, fun _ hq hqr => eq_of_rid_eq h.rises hq hr hqr, h.kinds r hr⟩

theorem request? (h : Fans s d) (hr : r ∈ s.table) : s.request? r.rid = some r := request?_entry (h.entry hr)

/-- What has been shed leaves the rest of the drive's requests to leave one by one. -/
theorem shed {g : List Request} (h : Fans s d) (hs : Shed d g s t) : Fans t d := by
  have hsub : t.table.Sublist s.table := by
    rw [hs.table]
    exact List.filter_sublist
  have hmem : ∀ q ∈ t.table, q ∈ s.table := fun q hq => hsub.subset hq
  refine ⟨h.rises.sublist (hsub.map _), hs.owner.trans h.ownerless, fun q hq => h.kinds q (hmem q hq), ?_, ?_⟩
  · exact fun q hq hd x hx => h.unchained q (hmem q hq) hd x (hmem x hx)
  · exact fun q hq hd ha => (matching_congr hs.windows).trans (h.unmatched q (hmem q hq) hd ha)

end Fans

/-- A failure folded changes the record of its port for its drive, and posts DEFERRED_ERROR where it makes it (R149). -/
theorem fold_spec (s : State) (r : Request) (e : Ending) :
    Shed r.drive [] s (s.fold r e)
      ∧ (∀ p, ofPort ((s.fold r e).drive r.drive).deferred p =
        if p = r.port then some (r.foldInto e (ofPort (s.drive r.drive).deferred p)) else ofPort (s.drive r.drive).deferred p)
      ∧ ∀ p, (s.fold r e).port p =
        if p = r.port ∧ (ofPort (s.drive r.drive).deferred p).isNone then
          (s.port p).posted .deferredError (.drive r.drive) .none else s.port p := by
  unfold State.fold
  cases hx : ofPort (s.drive r.drive).deferred r.port with
  | none =>
    simp only [post_eq]
    refine ⟨(Shed.onDeferred _ _ _).trans (Shed.onPort _ _ _ _), fun p => ?_, fun p => ?_⟩
    · by_cases hp : p = r.port
      · subst hp
        simp [hx, Request.foldInto, Request.residual]
      · simp [hp, ofPort_setOfPort_other]
    · by_cases hp : p = r.port
      · subst hp
        simp [hx]
      · simp [hp, port_onPort_other]
  | some x =>
    refine ⟨Shed.onDeferred _ _ _, fun p => ?_, fun p => ?_⟩
    · by_cases hp : p = r.port
      · subst hp
        simp [hx, Request.foldInto, Request.residual]
      · simp [hp, ofPort_setOfPort_other]
    · by_cases hp : p = r.port
      · subst hp
        simp [hx]
      · simp [hp]

/-- A request with the failure it carries (R150). -/
def carrying (r : Request) (e : Ending) : Request := { r with failure := some e }

/-- An early-ended write of a drive leaves with its failure folded (R150). -/
theorem early_leaves (h : Fans s r.drive) (hr : r ∈ s.table) (he : r.earlyEnded = true) :
    let t := (s.putRequest (carrying r e)).leaveTable r.rid
    Shed r.drive [r] s t
      ∧ (∀ p, ofPort (t.drive r.drive).deferred p =
        if p = r.port then some (r.foldInto e (ofPort (s.drive r.drive).deferred p)) else ofPort (s.drive r.drive).deferred p)
      ∧ ∀ p, t.port p =
        if p = r.port ∧ (ofPort (s.drive r.drive).deferred p).isNone then
          (s.port p).posted .deferredError (.drive r.drive) .none else s.port p := by
  have hk : (carrying r e).kind ≠ .labelUpdate := h.kinds r hr
  have hq : (s.withRequest (carrying r e)).request? (carrying r e).rid = some (carrying r e) :=
    request?_withRequest ⟨r, hr, rfl⟩ rfl
  have ht : (s.putRequest (carrying r e)).leaveTable r.rid =
      givenBack ((s.withRequest (carrying r e)).fold (carrying r e) e) (carrying r e) := by
    rw [putRequest_table hk]
    exact leaveTable_early (r := carrying r e) hq hk he rfl
  obtain ⟨hfold, hdef, hport⟩ := fold_spec (s.withRequest (carrying r e)) (carrying r e) e
  obtain ⟨hback, hd, hp⟩ := givenBack_shed (s := (s.withRequest (carrying r e)).fold (carrying r e) e) (r := carrying r e)
    (hfold.owner.trans h.ownerless)
  simp only [ht]
  exact ⟨(hfold.trans hback).of_withRequest rfl, fun p => by rw [hd]; exact hdef p, fun p => by rw [hp]; exact hport p⟩

/-- A port's record with the endings of requests reported in order, and its open chain broken where it names one of them
(R63, R56). -/
def told (pr : PortRec) (s : State) (qs : List Request) (e : Request → Ending) : PortRec :=
  { pr with
    reports := pr.reports ++ qs.map fun q => endingReport s q (e q) .none
    marker := pr.marker.map fun m =>
      if qs.any fun q => decide (m.member = some q.rid) then { m with standing := .endedOther } else m }

theorem told_nil (pr : PortRec) (s : State) (e : Request → Ending) : told pr s [] e = pr := by simp [told]

theorem told_append (pr : PortRec) (s : State) (qs qs' : List Request) (e : Request → Ending) :
    told (told pr s qs e) s qs' e = told pr s (qs ++ qs') e := by
  simp only [told, List.append_assoc, List.map_append, Option.map_map, List.any_append, Bool.or_eq_true]
  congr 2
  funext m
  simp only [Function.comp]
  split <;> split <;> simp_all

theorem told_congr {pr : PortRec} {qs : List Request} {e : Request → Ending}
    (h : ∀ q ∈ qs, t.recoveredCount q.port q.drive = s.recoveredCount q.port q.drive) : told pr t qs e = told pr s qs e := by
  unfold told
  congr 2
  apply List.map_congr_left
  intro q hq
  simp only [endingReport, h q hq]

/-- One request reported at its port, as each port reads it. -/
theorem port_onPort_told (s : State) (r : Request) (e : Request → Ending) (p : Port) :
    (s.onPort r.port fun pr => told pr s [r] e).port p = told (s.port p) s ([r].filter fun q => decide (q.port = p)) e := by
  by_cases hp : p = r.port
  · subst hp
    simp
  · rw [port_onPort_other _ hp]
    simp [Ne.symm hp, told_nil]

theorem withRequest_onPort (p : Port) (f : PortRec → PortRec) :
    (s.withRequest r).onPort p f = (s.onPort p f).withRequest r := rfl

/-- The ending of a request that has no chain behind it and meets no window, in a class other than DONE (R63). -/
theorem endBroken_eq (h : Fans s r.drive) (hr : r ∈ s.table) (hc : e.cls ≠ .done) :
    s.endBroken r e .none = (reported s r e).leaveTable r.rid := by
  have hreq : (s.reportEnding r e .none).request? r.rid = some r := h.request? hr
  have hm : r.reachedArm = true → (s.reportEnding r e .none).matching .reportAfter r.port r.drive r.kind r.extent = [] :=
    h.unmatched r hr rfl
  have hrep : ((s.reportEnding r e .none).reportAfter r).markStanding r.port r.rid .endedOther = reported s r e := by
    rw [reportAfter_plain hm hreq (h.kinds r hr), reported]
    simp only [State.markStanding, State.reportEnding, State.queueReport, hc, if_false]
    split
    · rw [withRequest_onPort, onPort_onPort]
    · rw [onPort_onPort]
  unfold State.endBroken
  simp only [hrep]
  rw [breakChain_none (reported_pred (h.unchained r hr rfl) hr)]

/-- A request reported stands as it was, or with its window mark off, and no drive has changed. -/
theorem reported_spec (h : Fans s r.drive) (hr : r ∈ s.table) (hc : e.cls ≠ .done) :
    (∀ x, (reported s r e).drive x = s.drive x)
      ∧ (∀ p, (reported s r e).port p = told (s.port p) s ([r].filter fun q => decide (q.port = p)) fun _ => e)
      ∧ ∃ q, q.rid = r.rid ∧ q.drive = r.drive ∧ q.kind = r.kind ∧ q.earlyEnded = r.earlyEnded
        ∧ (reported s r e).request? r.rid = some q
        ∧ ∀ t, Shed r.drive [q] (reported s r e) t → Shed r.drive [r] s t := by
  have hport := port_onPort_told s r fun _ => e
  have hrep : reported s r e = if r.reachedArm then
      (s.onPort r.port fun pr => told pr s [r] fun _ => e).withRequest { r with windowMatch := none }
      else s.onPort r.port fun pr => told pr s [r] fun _ => e := by
    simp only [reported, told, hc, if_false, List.map_cons, List.map_nil, List.any_cons, List.any_nil, Bool.or_false,
      decide_eq_true_eq]
  rw [hrep]
  split
  · refine ⟨fun _ => rfl, hport, { r with windowMatch := none }, rfl, rfl, rfl, rfl,
      request?_withRequest ⟨r, hr, rfl⟩ rfl, fun t ht => ?_⟩
    exact (Shed.onPort r.drive s r.port _).trans (ht.of_withRequest rfl)
  · exact ⟨fun _ => rfl, hport, r, rfl, rfl, rfl, rfl, h.request? hr, fun t ht => (Shed.onPort r.drive s r.port _).trans ht⟩

/-- A request reported and gone (R63 steps 1 to 4). -/
theorem reported_leaves (h : Fans s r.drive) (hr : r ∈ s.table) (he : r.earlyEnded = false) (hc : e.cls ≠ .done) :
    let t := (reported s r e).leaveTable r.rid
    Shed r.drive [r] s t ∧ (∀ x, t.drive x = s.drive x)
      ∧ ∀ p, t.port p = told (s.port p) s ([r].filter fun q => decide (q.port = p)) fun _ => e := by
  obtain ⟨hd, hp, q, hid, hdr, hk, hee, hq, hshed⟩ := reported_spec h hr hc
  have ht : (reported s r e).leaveTable r.rid = givenBack (reported s r e) q := by
    rw [← hid]
    exact leaveTable_unfolded (hid ▸ hq) (hk ▸ h.kinds r hr) (.inl (hee.trans he))
  obtain ⟨hback, hd', hp'⟩ := givenBack_shed (s := reported s r e) (r := q) (by rw [hd, hdr]; exact h.ownerless)
  rw [hdr] at hback
  simp only [ht]
  exact ⟨hshed _ hback, fun x => (hd' x).trans (hd x), fun p => (hp' p).trans (hp p)⟩

/-- The ending a fan-out gives a request: ABANDONED CANCELLED where a cancel pends on it (R35 step 3, R38 step 4). -/
def fanEnding (e : Ending) (q : Request) : Ending := if q.cancelPending then Ending.cancelled else e

/-- One request met by a fan-out: gone, and reported unless it is detached. -/
theorem fanEnd_spec (h : Fans s r.drive) (hr : r ∈ s.table) (he : r.earlyEnded = false) (hc : e.cls ≠ .done) :
    let t := s.fanEnd r.rid e
    Shed r.drive [r] s t ∧ (∀ x, t.drive x = s.drive x)
      ∧ ∀ p, t.port p = told (s.port p) s ([r].filter fun q => decide (q.port = p) && !q.detached) (fanEnding e) := by
  have hend : s.fanEnd r.rid e = if r.detached then s.leaveTable r.rid else s.endBroken r (fanEnding e r) .none := by
    simp only [State.fanEnd, h.request? hr, fanEnding]
    split_ifs <;> rfl
  rw [hend]
  cases hd : r.detached with
  | true =>
    simp only [if_true, leaveTable_unfolded (h.request? hr) (h.kinds r hr) (.inl he)]
    obtain ⟨hback, hdr, hp⟩ := givenBack_shed (s := s) h.ownerless
    exact ⟨hback, hdr, fun p => by simp [hp, hd, told_nil]⟩
  | false =>
    have hcls : (fanEnding e r).cls ≠ .done := by
      unfold fanEnding
      split
      · simp [Ending.cancelled, Ending.make]
      · exact hc
    simp only [Bool.false_eq_true, if_false, endBroken_eq h hr hcls]
    obtain ⟨hback, hdr, hp⟩ := reported_leaves h hr he hcls
    refine ⟨hback, hdr, fun p => ?_⟩
    rw [hp]
    by_cases hrp : r.port = p <;> simp [hrp, hd, told]

end

/-! ### A whole fan-out (R35, R38) -/

section
variable {d : Drive} {s t : State} {e : Ending}

/-- One request met by the folding of early-ended writes. -/
def earlyStep (s : State) (rid : Nat) : State :=
  match s.request? rid with
  | some r =>
    if r.earlyEnded then
      (s.putRequest (carrying r (Ending.at .ended .driveFault (r.blockAddr r.nextBlock)))).leaveTable rid
    else s
  | none => s

theorem foldEarly_eq (s : State) (d : Drive) : s.foldEarly d = (s.fanOut d).foldl earlyStep s := rfl

/-- The requests of a drive, in arrival order. -/
def driveRequests (s : State) (d : Drive) : List Request := s.table.filter fun q => decide (q.drive = d)

theorem mem_driveRequests {q : Request} : q ∈ driveRequests s d ↔ q ∈ s.table ∧ q.drive = d := by simp [driveRequests]

/-- With no request of the drive waiting in a chain, a fan-out reaches them all. -/
theorem fanOut_eq (h : ∀ q ∈ s.table, q.drive = d → q.state ≠ .waitingChain) :
    s.fanOut d = (driveRequests s d).map (·.rid) := by
  unfold State.fanOut driveRequests
  congr 1
  apply List.filter_congr
  intro q hq
  by_cases hd : q.drive = d
  · simp [hd, h q hq hd]
  · simp [hd]

/-- A deferred record after the early-ended writes `qs` have been folded into it in order (R149). -/
def foldedBy (qs : List Request) (x : Option DeferredRec) : Option DeferredRec :=
  qs.foldl (fun x q => some (q.foldInto (Ending.at .ended .driveFault (addrOf (blockOf q.addr + q.nextBlock))) x)) x

/-- A port after those writes have been folded: DEFERRED_ERROR posted where they made the record (R149). -/
def foldPosted (pr : PortRec) (d : Drive) (qs : List Request) (x : Option DeferredRec) : PortRec :=
  if x.isNone && !qs.isEmpty then pr.posted .deferredError (.drive d) .none else pr

/-- The requests left to meet are in the table still, of the drive, each under its own place. -/
def Awaits (s : State) (d : Drive) (rs : List Request) : Prop :=
  (∀ r ∈ rs, r ∈ s.table ∧ r.drive = d) ∧ (rs.map (·.rid)).Nodup

theorem Awaits.tail {r : Request} {rs g : List Request} (h : Awaits s d (r :: rs)) (hs : Shed d g s t)
    (hg : ∀ q ∈ g, q.rid = r.rid) : Awaits t d rs := by
  obtain ⟨hmem, hnodup⟩ := h
  obtain ⟨hr, hnodup⟩ := List.nodup_cons.1 hnodup
  refine ⟨fun q hq => ?_, hnodup⟩
  obtain ⟨hqt, hqd⟩ := hmem q (List.mem_cons_of_mem r hq)
  refine ⟨?_, hqd⟩
  rw [hs.table, mem_tableWithout]
  refine ⟨hqt, fun x hx hxq => hr ?_⟩
  have hrq : r.rid = q.rid := (hg x hx).symm.trans hxq
  exact List.mem_map.2 ⟨q, hq, hrq.symm⟩

theorem driveRequests_awaits (h : Fans s d) : Awaits s d (driveRequests s d) :=
  ⟨fun _ hr => mem_driveRequests.1 hr,
    (h.rises.sublist (List.filter_sublist.map _)).imp fun hlt => Nat.ne_of_lt hlt⟩

/-- The early-ended writes of a drive met in order: all folded and gone. -/
theorem foldl_earlyStep (rs : List Request) (h : Fans s d) (ha : Awaits s d rs) :
    let t := (rs.map (·.rid)).foldl earlyStep s
    let gone := rs.filter (·.earlyEnded)
    Shed d gone s t
      ∧ (∀ p, ofPort (t.drive d).deferred p =
          foldedBy (gone.filter fun q => decide (q.port = p)) (ofPort (s.drive d).deferred p))
      ∧ ∀ p, t.port p =
          foldPosted (s.port p) d (gone.filter fun q => decide (q.port = p)) (ofPort (s.drive d).deferred p) := by
  induction rs generalizing s with
  | nil => exact ⟨Shed.refl d s, fun _ => rfl, fun p => by simp [foldPosted]⟩
  | cons r rs ih =>
    obtain ⟨hr, rfl⟩ := ha.1 r List.mem_cons_self
    simp only [List.map_cons, List.foldl_cons]
    cases he : r.earlyEnded with
    | false =>
      have hstep : earlyStep s r.rid = s := by simp [earlyStep, h.request? hr, he]
      rw [hstep, List.filter_cons_of_neg (by simp [he])]
      exact ih h (ha.tail (Shed.refl _ s) (by simp))
    | true =>
      have hstep : earlyStep s r.rid =
          (s.putRequest (carrying r (Ending.at .ended .driveFault (r.blockAddr r.nextBlock)))).leaveTable r.rid := by
        simp [earlyStep, h.request? hr, he]
      obtain ⟨hshed, hdef, hport⟩ :=
        early_leaves (e := Ending.at .ended .driveFault (r.blockAddr r.nextBlock)) h hr he
      rw [hstep, List.filter_cons_of_pos (by simp [he])]
      obtain ⟨hshed', hdef', hport'⟩ := ih (h.shed hshed) (ha.tail hshed (by simp))
      refine ⟨hshed.trans hshed', fun p => ?_, fun p => ?_⟩
      · rw [hdef', hdef]
        by_cases hp : p = r.port
        · subst hp
          simp only [decide_true, List.filter_cons_of_pos, if_true]
          rfl
        · rw [List.filter_cons_of_neg (by simpa using Ne.symm hp), if_neg hp]
      · rw [hport', hport, hdef]
        by_cases hp : p = r.port
        · subst hp
          simp [foldPosted]
        · rw [List.filter_cons_of_neg (by simpa using Ne.symm hp), if_neg hp, if_neg (by simp [hp])]

/-- Requests met in order by a fan-out: all gone, and reported unless detached. -/
theorem foldl_fanEnd (rs : List Request) (h : Fans s d) (ha : Awaits s d rs) (he : ∀ r ∈ rs, r.earlyEnded = false)
    (hc : e.cls ≠ .done) :
    let t := (rs.map (·.rid)).foldl (fun s rid => s.fanEnd rid e) s
    Shed d rs s t ∧ (∀ x, t.drive x = s.drive x)
      ∧ ∀ p, t.port p = told (s.port p) s (rs.filter fun q => decide (q.port = p) && !q.detached) (fanEnding e) := by
  induction rs generalizing s with
  | nil => exact ⟨Shed.refl d s, fun _ => rfl, fun p => by simp [told_nil]⟩
  | cons r rs ih =>
    obtain ⟨hr, rfl⟩ := ha.1 r List.mem_cons_self
    obtain ⟨hshed, hdr, hport⟩ := fanEnd_spec h hr (he r List.mem_cons_self) hc
    simp only [List.map_cons, List.foldl_cons]
    obtain ⟨hshed', hdr', hport'⟩ := ih (h.shed hshed) (ha.tail hshed (by simp))
      fun q hq => he q (List.mem_cons_of_mem r hq)
    refine ⟨hshed.trans hshed', fun x => (hdr' x).trans (hdr x), fun p => ?_⟩
    rw [hport', hport, told_congr (s := s) fun q _ => by simp only [State.recoveredCount, hdr], told_append, ← List.filter_append]
    rfl

/-- Which of a drive's requests a fan-out folds, and which it ends: all the others but the `kept` ones. -/
def foldsOf (s : State) (d : Drive) : List Request := (driveRequests s d).filter (·.earlyEnded)
def endsOf (s : State) (d : Drive) (kept : Request → Bool) : List Request :=
  (driveRequests s d).filter fun q => !q.earlyEnded && !kept q

/-- What a fan-out over a drive's requests comes to. -/
structure Fanned (s t : State) (d : Drive) (e : Ending) (kept : Request → Bool) : Prop where
  shed : Shed d (foldsOf s d ++ endsOf s d kept) s t
  deferred : ∀ p, ofPort (t.drive d).deferred p = s.foldedRecord d p
  ports : ∀ p, t.port p =
    { told (s.port p) s ((endsOf s d kept).filter fun q => decide (q.port = p) && !q.detached) (fanEnding e) with
      notices := s.foldedNotices d p
      noticeLine := if s.foldsAnew d p then (s.port p).settings.noticeLineEnable else (s.port p).noticeLine }

theorem earlyWrites_eq (s : State) (d : Drive) (p : Port) :
    s.earlyWrites d p = (foldsOf s d).filter fun q => decide (q.port = p) := by
  simp only [State.earlyWrites, foldsOf, driveRequests, List.filter_filter]
  apply List.filter_congr
  intro q _
  cases q.earlyEnded <;> cases decide (q.drive = d) <;> simp

/-- Of the requests of a drive those not early-ended stand after the folding. -/
theorem driveRequests_foldEarly (h : Fans s d) (hs : Shed d (foldsOf s d) s t) :
    driveRequests t d = (driveRequests s d).filter fun q => !q.earlyEnded := by
  simp only [driveRequests, hs.table, tableWithout, List.filter_filter]
  apply List.filter_congr
  intro q hq
  by_cases hd : q.drive = d
  · simp only [hd, decide_true, Bool.true_and, Bool.and_true]
    cases he : q.earlyEnded with
    | true =>
      have hmem : q ∈ foldsOf s d := List.mem_filter.2 ⟨mem_driveRequests.2 ⟨hq, hd⟩, he⟩
      simp only [Bool.not_true, Bool.not_eq_false', List.any_eq_true]
      exact ⟨q, hmem, by simp⟩
    | false =>
      simp only [Bool.not_false, Bool.not_eq_true', List.any_eq_false]
      intro r hr hrq
      obtain ⟨hr, hre⟩ := List.mem_filter.1 hr
      obtain rfl := eq_of_rid_eq h.rises (mem_driveRequests.1 hr).1 hq (by simpa using hrq)
      rw [he] at hre
      cases hre
  · simp [hd]

/-- A fan-out: the early-ended writes folded, then every request ended whose place passes the test `ends`, which keeps the
`kept` ones. -/
theorem fan_spec (h : Fans s d) (hw : ∀ q ∈ s.table, q.drive = d → q.state ≠ .waitingChain) {kept : Request → Bool}
    {ends : Nat → Bool} (hends : ∀ q ∈ driveRequests (s.foldEarly d) d, ends q.rid = !kept q) (hc : e.cls ≠ .done) :
    Fanned s ((((s.foldEarly d).fanOut d).filter ends).foldl (fun s rid => s.fanEnd rid e) (s.foldEarly d)) d e kept := by
  obtain ⟨hshed, hdef, hport⟩ := foldl_earlyStep (driveRequests s d) h (driveRequests_awaits h)
  rw [← fanOut_eq hw, ← foldEarly_eq] at hshed hdef hport
  generalize s.foldEarly d = v at *
  have hv := h.shed hshed
  have hvw : ∀ q ∈ v.table, q.drive = d → q.state ≠ .waitingChain := fun q hq =>
    hw q (mem_tableWithout.1 (hshed.table ▸ hq)).1
  have hrs : (driveRequests v d).filter (fun q => !kept q) = endsOf s d kept := by
    rw [driveRequests_foldEarly h hshed, List.filter_filter, endsOf]
    apply List.filter_congr
    intro q _
    rw [Bool.and_comm]
  have hlist : (v.fanOut d).filter ends = (endsOf s d kept).map (·.rid) := by
    rw [fanOut_eq hvw, List.filter_map, ← hrs]
    congr 1
    exact List.filter_congr hends
  have hsub : (endsOf s d kept).Sublist (driveRequests v d) := hrs ▸ List.filter_sublist
  have hawaits : Awaits v d (endsOf s d kept) := by
    obtain ⟨hmem, hnodup⟩ := driveRequests_awaits hv
    exact ⟨fun r hr => hmem r (hsub.subset hr), hnodup.sublist (hsub.map _)⟩
  have hearly : ∀ r ∈ endsOf s d kept, r.earlyEnded = false := fun r hr => by
    simpa using (Bool.and_eq_true_iff.1 (List.mem_filter.1 hr).2).1
  obtain ⟨hshed', hdr', hport'⟩ := foldl_fanEnd (endsOf s d kept) hv hawaits hearly hc
  rw [hlist]
  refine ⟨hshed.trans hshed', fun p => ?_, fun p => ?_⟩
  · rw [hdr', hdef, State.foldedRecord, earlyWrites_eq]
    rfl
  · have hrec : ∀ q ∈ endsOf s d kept, v.recoveredCount q.port q.drive = s.recoveredCount q.port q.drive := by
      intro q hq
      obtain rfl := (hawaits.1 q hq).2
      unfold State.recoveredCount
      rw [hshed.own]
    rw [hport', told_congr (s := s) fun q hq => hrec q (List.mem_of_mem_filter hq), hport, foldPosted,
      State.foldedNotices, State.foldsAnew, earlyWrites_eq, foldsOf]
    generalize ((ofPort (s.drive d).deferred p).isNone && _) = anew
    cases anew <;> rfl

/-- The state `t` is `s` with the drive's record changed, its deferred records and recovered counts kept, and with no other
difference than free values taken. -/
structure Halted (s t : State) (d : Drive) : Prop where
  frame : t = { s with drives := t.drives, freeCount := t.freeCount }
  others : ∀ x : Drive, x ≠ d → t.drive x = s.drive x
  recCounts : (t.drive d).recCounts = (s.drive d).recCounts
  deferred : (t.drive d).deferred = (s.drive d).deferred

namespace Halted

theorem table (h : Halted s t d) : t.table = s.table := by rw [h.frame]
theorem windows (h : Halted s t d) : t.windows = s.windows := by rw [h.frame]
theorem port (h : Halted s t d) (p : Port) : t.port p = s.port p := by rw [h.frame]; rfl
theorem driveRequests (h : Halted s t d) : driveRequests t d = Proofs.driveRequests s d := by
  simp only [Proofs.driveRequests, h.table]

theorem recoveredCount (h : Halted s t d) (p : Port) (x : Drive) : t.recoveredCount p x = s.recoveredCount p x := by
  unfold State.recoveredCount
  by_cases hx : x = d
  · rw [hx, h.recCounts]
  · rw [h.others x hx]

theorem earlyWrites (h : Halted s t d) (p : Port) : t.earlyWrites d p = s.earlyWrites d p := by
  simp only [State.earlyWrites, h.table]

theorem foldedRecord (h : Halted s t d) (p : Port) : t.foldedRecord d p = s.foldedRecord d p := by
  simp only [State.foldedRecord, h.earlyWrites, h.deferred]

theorem foldsAnew (h : Halted s t d) (p : Port) : t.foldsAnew d p = s.foldsAnew d p := by
  simp only [State.foldsAnew, h.earlyWrites, h.deferred]

theorem foldedNotices (h : Halted s t d) (p : Port) : t.foldedNotices d p = s.foldedNotices d p := by
  simp only [State.foldedNotices, h.foldsAnew, h.port]

end Halted

/-- The requests a fan-out folds and ends are those it does not keep, where it keeps no early-ended one. -/
theorem mem_gone {kept : Request → Bool} (hk : ∀ q ∈ s.table, q.drive = d → q.earlyEnded = true → kept q = false)
    (q : Request) : q ∈ foldsOf s d ++ endsOf s d kept ↔ q ∈ s.table ∧ q.drive = d ∧ kept q = false := by
  simp only [foldsOf, endsOf, List.mem_append, List.mem_filter, mem_driveRequests, Bool.and_eq_true, Bool.not_eq_true']
  constructor
  · rintro (⟨⟨hq, hd⟩, he⟩ | ⟨⟨hq, hd⟩, -, hkq⟩)
    · exact ⟨hq, hd, hk q hq hd he⟩
    · exact ⟨hq, hd, hkq⟩
  · rintro ⟨hq, hd, hkq⟩
    cases he : q.earlyEnded with
    | true => exact .inl ⟨⟨hq, hd⟩, rfl⟩
    | false => exact .inr ⟨⟨hq, hd⟩, rfl, hkq⟩

/-- What a halt, a fan-out and what is posted after it can have changed in all. -/
theorem frame_of_shed {s₀ u : State} {g : List Request}
    (hs : s = { s₀ with drives := s.drives, freeCount := s.freeCount }) (ht : Shed d g s t)
    (hu : u = { t with drives := u.drives, ports := u.ports }) : u = { s₀ with
      drives := u.drives, ports := u.ports, table := t.table, path0 := u.path0, path1 := u.path1
      preference := u.preference, segments := u.segments, buffer := u.buffer, freeCount := u.freeCount } := by
  have ht := ht.frame
  cases s₀; cases s; cases t; cases u
  simp only [State.mk.injEq] at hs ht hu ⊢
  simp [hs, ht, hu]

/-- A fan-out over a halted drive leaves what `fannedOut` says, whatever is posted after it. -/
theorem Fanned.fannedOut {s₀ u : State} {kept : Request → Bool} (h : Fanned s t d e kept) (hs : Halted s₀ s d)
    (hrise : (s.table.map (·.rid)).Pairwise (· < ·))
    (hk : ∀ q ∈ s.table, q.drive = d → q.earlyEnded = true → kept q = false)
    (hu : u = { t with drives := u.drives, ports := u.ports }) (hx : ∀ x : Drive, x ≠ d → u.drive x = t.drive x)
    (hp : ∀ p, u.port p = { t.port p with notices := (u.port p).notices, noticeLine := (u.port p).noticeLine }) :
    s₀.fannedOut u d e kept := by
  let gone := s₀.table.filter fun q => decide (q.drive = d) && !kept q
  have hmem : ∀ q, q ∈ foldsOf s d ++ endsOf s d kept ↔ q ∈ gone := fun q => by
    rw [mem_gone hk, hs.table]
    simp [gone]
  have hany : ∀ P : Request → Bool, (foldsOf s d ++ endsOf s d kept).any P = gone.any P := fun P => by
    rw [Bool.eq_iff_iff, List.any_eq_true, List.any_eq_true]
    simp only [hmem]
  have hin : ∀ q ∈ s.table, (gone.any fun r => r.rid == q.rid) = (decide (q.drive = d) && !kept q) := fun q hq => by
    rw [Bool.eq_iff_iff, List.any_eq_true]
    constructor
    · rintro ⟨r, hr, hrq⟩
      obtain ⟨hr, hgone⟩ := List.mem_filter.1 hr
      rwa [← eq_of_rid_eq hrise (hs.table ▸ hr) hq (by simpa using hrq)]
    · exact fun hgone => ⟨q, List.mem_filter.2 ⟨hs.table ▸ hq, hgone⟩, by simp⟩
  have htable : t.table = s₀.table.filter fun q => decide (q.drive ≠ d) || kept q := by
    rw [h.shed.table, ← hs.table]
    apply List.filter_congr
    intro q hq
    rw [hany, hin q hq]
    by_cases hd : q.drive = d <;> simp [hd]
  have hlist : ∀ p, ((endsOf s d kept).filter fun q => decide (q.port = p) && !q.detached) =
      gone.filter fun q => decide (q.port = p) && !q.earlyEnded && !q.detached := fun p => by
    simp only [endsOf, driveRequests, gone, hs.table, List.filter_filter]
    apply List.filter_congr
    intro q _
    cases decide (q.drive = d) <;> cases q.earlyEnded <;> simp
  refine ⟨?_, fun p => ?_, fun i => ?_, fun q hq => ?_, fun x hxd => ?_⟩
  · rw [← htable]
    exact frame_of_shed hs.frame h.shed hu
  · rw [hp, h.ports, hs.port, told_congr (s := s₀) fun q _ => hs.recoveredCount q.port q.drive, hlist]
    rfl
  · have hseg : u.segments = t.segments := by rw [hu]
    have hseg' : s.segments = s₀.segments := by rw [hs.frame]
    rw [hseg, h.shed.segments, hseg']
    congr 1
    funext n
    rw [hany]
  · obtain ⟨h0, h1, h2, h3, h4⟩ := h.shed.lacks q.rid (.inr ⟨q, (hmem q).2 hq, rfl⟩)
    rw [hu]
    exact ⟨h0, h1, h2, h3, h4⟩
  · rw [hx x hxd, h.shed.others x hxd, hs.others x hxd]

end
end Sys2Proof.Proofs

/-! ### The stop and the fault of a drive in the midst of its requests (R35, R38) -/

namespace Sys2Proof.Proofs
open Sys2Proof Sys2Proof.Machine Sys2Proof.Laws

section
variable {s t : State} {d : Drive} {pk : Option Pack} {k : Nat} {f : DriveRec → DriveRec}

/-- A drive cut and its record changed, its deferred records and recovered counts kept, is halted. -/
theorem halted_of_cut (hr : ∀ dr, (f dr).recCounts = dr.recCounts) (hd : ∀ dr, (f dr).deferred = dr.deferred) :
    Halted s ((repacked s d pk k).onDrive d f) d where
  frame := rfl
  others x hx := by rw [drive_onDrive_other f hx, repacked_drive_other pk k hx]
  recCounts := by rw [drive_onDrive_same, hr, repacked_drive_same]
  deferred := by rw [drive_onDrive_same, hd, repacked_drive_same]

/-- With its arm given up, the requests of a halted drive leave one by one. -/
theorem fans_of_halted (h : s.fansPlainly d) (ht : Halted s t d) (ho : (t.drive d).owner = none) : Fans t d := by
  obtain ⟨⟨_, hrise, _⟩, _, hkind, hplain⟩ := h
  refine ⟨ht.table ▸ hrise, ho, fun q hq => hkind q (ht.table ▸ hq), fun q hq hd x hx => ?_, fun q hq hd ha => ?_⟩
  · exact (hplain q (ht.table ▸ hq) hd).2.1 x (ht.table ▸ hx)
  · rw [matching_congr ht.windows]
    exact (hplain q (ht.table ▸ hq) hd).2.2 ha

/-- The folding of a drive's early-ended writes takes them, and only them, from the table. -/
theorem foldEarly_shed (h : Fans s d) (hw : ∀ q ∈ s.table, q.drive = d → q.state ≠ .waitingChain) :
    Shed d (foldsOf s d) s (s.foldEarly d) := by
  rw [foldEarly_eq, fanOut_eq hw]
  exact (foldl_earlyStep (driveRequests s d) h (driveRequests_awaits h)).1

/-- A drive without a label update has none to drop. -/
theorem dropLabelUpdate_none (h : (s.drive d).labelUpdate = none) : s.dropLabelUpdate d = s := by
  unfold State.dropLabelUpdate
  rw [h]

theorem loseReservation_none (h : (s.drive d).unit.owner = none) : s.loseReservation d = s := by
  unfold State.loseReservation
  rw [h]

/-- A drive's leg cut, its record changed by `f`, and a fan-out over its requests: what a stop and a fault have in common
(R35, R38). -/
def fannedFrom (s : State) (d : Drive) (f : DriveRec → DriveRec) (ends : State → Nat → Bool) (e : Ending) : State :=
  let v := ((s.cutLeg d).onDrive d f).foldEarly d
  ((v.fanOut d).filter (ends v)).foldl (fun s rid => s.fanEnd rid e) v

/-- A change of a drive's record that gives up its arm and keeps its recovered counts, deferred records and label update. -/
structure Halts (f : DriveRec → DriveRec) : Prop where
  owner : ∀ dr, (f dr).owner = none
  recCounts : ∀ dr, (f dr).recCounts = dr.recCounts
  deferred : ∀ dr, (f dr).deferred = dr.deferred
  labelUpdate : ∀ dr, (f dr).labelUpdate = dr.labelUpdate

/-- What a stop and a fault have in common comes to: the leg cut, the drive's record changed, its early-ended writes folded,
its other requests but the `kept` ones ended, whatever is posted after it. -/
theorem fannedFrom_spec (h : s.fansPlainly d) (hf : Halts f) {ends : State → Nat → Bool} {kept : Request → Bool} {e : Ending}
    (hc : e.cls ≠ .done)
    (hends : ∀ v : State, Fans v d → (∀ q ∈ v.table, q ∈ s.table) → ∀ q ∈ v.table, q.drive = d → q.earlyEnded = false →
      ends v q.rid = !kept q)
    (hearly : ∀ q ∈ s.table, q.drive = d → q.earlyEnded = true → kept q = false) :
    let t := fannedFrom s d f ends e
    (∃ pk, s.packCut d pk ∧ t.drive d = { f { s.drive d with pack := pk } with deferred := (t.drive d).deferred })
      ∧ (∀ p, ofPort (t.drive d).deferred p = s.foldedRecord d p)
      ∧ (∀ p, (t.port p).notices = s.foldedNotices d p ∧ (t.port p).settings = (s.port p).settings
        ∧ (t.port p).noticeLine =
          if s.foldsAnew d p then (s.port p).settings.noticeLineEnable else (s.port p).noticeLine)
      ∧ ∀ u : State, u = { t with drives := u.drives, ports := u.ports } → (∀ x : Drive, x ≠ d → u.drive x = t.drive x) →
        (∀ p, u.port p = { t.port p with notices := (u.port p).notices, noticeLine := (u.port p).noticeLine }) →
        s.fannedOut u d e kept := by
  obtain ⟨pk, k, hcut, hpk⟩ := cutLeg_spec s d
  simp only [fannedFrom, hcut]
  have hhalt : Halted s ((repacked s d pk k).onDrive d f) d := halted_of_cut hf.recCounts hf.deferred
  have hdrive : ((repacked s d pk k).onDrive d f).drive d = f { s.drive d with pack := pk } := by
    rw [drive_onDrive_same, repacked_drive_same]
  generalize (repacked s d pk k).onDrive d f = v at *
  have hfans : Fans v d := fans_of_halted h hhalt (hdrive ▸ hf.owner _)
  obtain ⟨-, -, -, hplain⟩ := h
  have hw : ∀ q ∈ v.table, q.drive = d → q.state ≠ .waitingChain := fun q hq hd =>
    (hplain q (hhalt.table ▸ hq) hd).1
  have hshed := foldEarly_shed hfans hw
  have hends' : ∀ q ∈ driveRequests (v.foldEarly d) d, ends (v.foldEarly d) q.rid = !kept q := by
    intro q hq
    obtain ⟨hqt, hqd⟩ := mem_driveRequests.1 hq
    rw [driveRequests_foldEarly hfans hshed] at hq
    refine hends _ (hfans.shed hshed) (fun x hx => ?_) q hqt hqd (by simpa using (List.mem_filter.1 hq).2)
    exact hhalt.table ▸ (mem_tableWithout.1 (hshed.table ▸ hx)).1
  have hfan := fan_spec hfans hw hends' hc
  generalize ((v.foldEarly d).fanOut d |>.filter _).foldl _ _ = t at *
  refine ⟨⟨pk, hpk, ?_⟩, fun p => ?_, fun p => ?_, fun u hu hx hp => ?_⟩
  · rw [← hdrive]
    exact hfan.shed.own
  · rw [hfan.deferred, hhalt.foldedRecord]
  · rw [hfan.ports, ← hhalt.foldedNotices, ← hhalt.foldsAnew, ← hhalt.port]
    exact ⟨rfl, rfl, rfl⟩
  · exact hfan.fannedOut hhalt hfans.rises (fun q hq => hearly q (hhalt.table ▸ hq)) hu hx hp

/-- The record of a drive as its stop begins (R35). -/
def stopped (dr : DriveRec) : DriveRec := { dr.haltArm with state := .stopping, motor := .coasting }

theorem stopDrive_eq (s : State) (d : Drive) (except : Option Nat) : s.stopDrive d except =
    ((fannedFrom s d stopped (fun _ rid => except != some rid) (Ending.make .abandoned .driveStopped)).dropLabelUpdate
      d).loseReservation d := rfl

/-- The stop of an unreserved drive (R35): all its requests but the `kept` ones folded or ended. -/
theorem stopDrive_spec (h : s.fansPlainly d) (hu : (s.drive d).unit.owner = none) {except : Option Nat}
    {kept : Request → Bool} (hkept : ∀ q ∈ s.table, q.drive = d → q.earlyEnded = false → (except != some q.rid) = !kept q)
    (hearly : ∀ q ∈ s.table, q.drive = d → q.earlyEnded = true → kept q = false) :
    let t := s.stopDrive d except
    s.fannedOut t d (Ending.make .abandoned .driveStopped) kept
      ∧ t.drive d = { (s.drive d).still with
          state := .stopping, motor := .coasting, deferred := (t.drive d).deferred, pack := (t.drive d).pack }
      ∧ s.packCut d (t.drive d).pack
      ∧ ∀ p : Port, ofPort (t.drive d).deferred p = s.foldedRecord d p
        ∧ (t.port p).notices = s.foldedNotices d p
        ∧ (t.port p).noticeLine =
          if s.foldsAnew d p then (s.port p).settings.noticeLineEnable else (s.port p).noticeLine := by
  have hf : Halts stopped := ⟨fun _ => rfl, fun _ => rfl, fun _ => rfl, fun _ => rfl⟩
  obtain ⟨⟨pk, hpk, hd⟩, hdef, hport, hout⟩ := fannedFrom_spec (ends := fun _ rid => except != some rid) h hf
    (e := Ending.make .abandoned .driveStopped) (by simp [Ending.make]) (fun v _ hv q hq => hkept q (hv q hq)) hearly
  rw [stopDrive_eq]
  generalize fannedFrom s d stopped _ _ = t at *
  have hpack : (t.drive d).pack = pk := by rw [hd]; rfl
  rw [dropLabelUpdate_none (by rw [hd]; exact h.2.1), loseReservation_none (by rw [hd]; exact hu)]
  refine ⟨hout t rfl (fun _ _ => rfl) fun _ => rfl, ?_, hpack ▸ hpk, fun p => ⟨hdef p, (hport p).1, (hport p).2.2⟩⟩
  rw [hpack]
  exact hd

/-- The port and tag a fault record names: its owner's, unless that is the label update (R38, R75). -/
def faultOwner (owner : Option Request) : Option (Port × Nat) :=
  match owner with
  | some r => if r.kind = .labelUpdate then none else some (r.port, r.tag)
  | none => none

theorem faultOwner_some {r : Request} (h : r.kind ≠ .labelUpdate) : faultOwner (some r) = some (r.port, r.tag) := by
  simp [faultOwner, h]

/-- The record of a drive as its fault begins (R38). -/
def faulted (k : FaultKind) (cur tgt : Nat) (owner : Option (Port × Nat)) (dr : DriveRec) : DriveRec :=
  { dr.haltArm with
    state := .faulted
    fault := some { kind := k, curCyl := cur, tgtCyl := tgt, collected := false, owner := owner }
    motor := if k = .spinTimeout then .coasting else dr.motor }

/-- The requests the fault's fan-out ends: those that still stand and are no SYNCHRONIZE. -/
def faultEnds (s : State) (rid : Nat) : Bool :=
  match s.request? rid with
  | some r => r.kind != .synchronize
  | none => false

theorem faultDrive_eq (s : State) (d : Drive) (k : FaultKind) (owner : Option Request) : s.faultDrive d k owner =
    ((fannedFrom s d (faulted k (s.drive d).curCyl (s.drive d).tgtCyl (faultOwner owner)) faultEnds
      (Ending.make .ended .driveFault)).dropLabelUpdate d).postAll .driveFaulted d := rfl

/-- The fault of a drive at speed (R38): all its requests but SYNCHRONIZE folded or ended, DRIVE_FAULTED posted. -/
theorem faultDrive_spec (h : s.fansPlainly d) {k : FaultKind} (hk : k ≠ .spinTimeout) (owner : Option Request) :
    s.faultedBy (s.faultDrive d k owner) d k (faultOwner owner) := by
  let kept : Request → Bool := fun q => decide (q.kind = .synchronize) && !q.earlyEnded
  have hf : Halts (faulted k (s.drive d).curCyl (s.drive d).tgtCyl (faultOwner owner)) :=
    ⟨fun _ => rfl, fun _ => rfl, fun _ => rfl, fun _ => rfl⟩
  have hends : ∀ v : State, Fans v d → (∀ q ∈ v.table, q ∈ s.table) → ∀ q ∈ v.table, q.drive = d → q.earlyEnded = false →
      faultEnds v q.rid = !kept q := fun v hv _ q hq _ he => by
    simp only [faultEnds, hv.request? hq, kept, he]
    simp [bne, beq_eq_decide]
  obtain ⟨⟨pk, hpk, hd⟩, hdef, hport, hout⟩ := fannedFrom_spec h hf (e := Ending.make .ended .driveFault)
    (by simp [Ending.make]) hends fun q _ _ he => by simp [kept, he]
  rw [faultDrive_eq]
  generalize fannedFrom s d _ faultEnds _ = t at *
  have hpack : (t.drive d).pack = pk := by rw [hd]; rfl
  have hposted : ∀ p, (t.postAll .driveFaulted d).port p = (t.port p).posted .driveFaulted (.drive d) .none := fun p => by
    rw [postAll_eq]
    simp [State.port]
  rw [dropLabelUpdate_none (by rw [hd]; exact h.2.1)]
  have hdrives : ∀ x, (t.postAll .driveFaulted d).drive x = t.drive x := fun x => by rw [postAll_eq]; rfl
  refine ⟨hout _ (by rw [postAll_eq]) (fun x _ => hdrives x) fun p => by rw [hposted]; rfl, ?_, ?_, fun p => ?_, fun p => ?_⟩
  · rw [hdrives, hpack]
    conv_lhs => rw [hd]
    simp only [faulted, hk, if_false]
    rfl
  · rw [hdrives, hpack]
    exact hpk
  · rw [hdrives]
    exact hdef p
  · rw [hposted]
    exact ⟨congrArg (postInto · _ _ _) (hport p).1, congrArg (·.noticeLineEnable) (hport p).2.1⟩

end
end Sys2Proof.Proofs

/-! ### Quiet states after a drive has changed, and starts that begin (R21, R76) -/

namespace Sys2Proof.Proofs
open Sys2Proof Sys2Proof.Machine Sys2Proof.Laws

section
variable {s t : State} {d : Drive} {f : DriveRec → DriveRec}

theorem queue_congr (ht : t.table = s.table) (hl : (t.drive d).labelUpdate = (s.drive d).labelUpdate) :
    t.queue d = s.queue d := by simp only [State.queue, ht, hl]

theorem settled_congr (ht : t.table = s.table) : t.settled = s.settled := by
  simp only [State.settled, State.awaited, ht]

theorem onDrive_labelUpdate (hl : (f (s.drive d)).labelUpdate = (s.drive d).labelUpdate) (e : Drive) :
    ((s.onDrive d f).drive e).labelUpdate = (s.drive e).labelUpdate := by
  by_cases he : e = d
  · rw [he, drive_onDrive_same, hl]
  · rw [drive_onDrive_other f he]

/-- A drive's change that frees no arm leaves an idle state idle. -/
theorem idle_onDrive (h : s.idle) (hl : (f (s.drive d)).labelUpdate = (s.drive d).labelUpdate)
    (hf : (f (s.drive d)).armFree = true → (s.drive d).armFree = true) : (s.onDrive d f).idle := by
  refine idle_of h rfl (settled_congr rfl) fun e he => ⟨?_, queue_congr rfl (onDrive_labelUpdate hl e)⟩
  by_cases hed : e = d
  · rw [hed, drive_onDrive_same] at he
    exact hed ▸ hf he
  · rwa [drive_onDrive_other f hed] at he

/-- A drive that may be started from the start list (R21). -/
def mayStart (dr : DriveRec) : Bool := decide (dr.state = .stopped) && dr.packSeated && dr.doorClosed

/-- How many drives are STARTING (R21). -/
def startingCount (s : State) : Nat := (allDrives.filter fun e => decide ((s.drive e).state = .starting)).length

theorem startable_eq (s : State) : s.startable =
    if s.gateOpen = true ∧ startingCount s < 2 then s.startList.find? fun e => mayStart (s.drive e) else none := rfl

theorem startable_eq_none : s.startable = none ↔
    (s.gateOpen = true → startingCount s < 2 → ∀ e ∈ s.startList, mayStart (s.drive e) = false) := by
  rw [startable_eq]
  split
  · rename_i h
    simp [h.1, h.2]
  · rename_i h
    simp only [true_iff]
    exact fun h1 h2 => absurd ⟨h1, h2⟩ h

theorem startingCount_congr (h : ∀ e : Drive, (t.drive e).state = .starting ↔ (s.drive e).state = .starting) :
    startingCount t = startingCount s := by
  unfold startingCount
  congr 1
  exact List.filter_congr fun e _ => by simp only [h e]

theorem startingCount_onDrive (h : (f (s.drive d)).state = .starting ↔ (s.drive d).state = .starting) :
    startingCount (s.onDrive d f) = startingCount s := by
  apply startingCount_congr
  intro e
  by_cases he : e = d
  · rw [he, drive_onDrive_same, h]
  · rw [drive_onDrive_other f he]

/-- A drive's change that begins or ends no start and lets the drive not start leaves nothing to start. -/
theorem startable_onDrive (h : s.startable = none) (hs : (f (s.drive d)).state = .starting ↔ (s.drive d).state = .starting)
    (hm : d ∈ s.startList → mayStart (f (s.drive d)) = true → mayStart (s.drive d) = true) :
    (s.onDrive d f).startable = none := by
  rw [startable_eq_none] at h ⊢
  rw [startingCount_onDrive hs]
  intro hg hc e he
  by_cases hed : e = d
  · subst hed
    have hno := h hg hc e he
    rw [drive_onDrive_same]
    by_contra hyes
    rw [hm he (by simpa using hyes)] at hno
    cases hno
  · rw [drive_onDrive_other f hed]
    exact h hg hc e he

/-- A drive's change that frees no arm and lets nothing start leaves a quiet state quiet. -/
theorem quiet_onDrive (h : s.quiet) (hl : (f (s.drive d)).labelUpdate = (s.drive d).labelUpdate)
    (hf : (f (s.drive d)).armFree = true → (s.drive d).armFree = true)
    (hs : (f (s.drive d)).state = .starting ↔ (s.drive d).state = .starting)
    (hm : d ∈ s.startList → mayStart (f (s.drive d)) = true → mayStart (s.drive d) = true) : (s.onDrive d f).quiet :=
  ⟨idle_onDrive h.1 hl hf, startable_onDrive h.2 hs hm⟩

/-- A start begun closes the gate, so that none follows it in the event (R21). -/
theorem beginStartOf_quiet (d : Drive) (h : s.idle) : (s.beginStartOf d).quiet := by
  refine ⟨?_, by simp [State.startable, State.beginStartOf]⟩
  have hidle : ({ s with startList := s.startList.filter (· != d), gateOpen := false, gapTimer := some Config.gapTime } :
      State).idle := h
  exact idle_onDrive hidle rfl fun hfree => by simp [DriveRec.armFree] at hfree

/-- From an idle state the start that may begin begins, and nothing more follows. -/
theorem settleWith_start (h : s.idle) (hd : s.startable = some d) (q : TestPlan) :
    s.settleWith q = s.beginStartOf d := by
  have hstep : s.settleStep [] q = some (s.beginStartOf d, [], q) := by
    simp [State.settleStep, grantBuffer?_none h.1, settleSync?_none h.2.1, nextDecision_none h.2.2, hd]
  have hnext : (s.beginStartOf d).settleStep [] q = none := by
    obtain ⟨⟨hwait, hsettled, hqueue⟩, hstart⟩ := beginStartOf_quiet d h
    simp [State.settleStep, grantBuffer?_none hwait, settleSync?_none hsettled, nextDecision_none hqueue, hstart]
  simp [State.settleWith, State.settleBy, hstep, hnext]

theorem settle_start (h : t.idle) (hd : t.startable = some d) : s.settle t = t.beginStartOf d := settleWith_start h hd _

theorem close_start (h : t.idle) (hd : t.startable = some d) : s.close t = (t.beginStartOf d).flush := by
  simp [State.close, settle_start h hd]

end

/-! ### The requests of a clearing (R40) -/

section
variable {s t v : State} {d : Drive} {r : Request} {e : Ending}

/-- A request that ends for itself alone: reported, never arm owner, named by nothing else. -/
structure EndsAlone (s : State) (r : Request) : Prop where
  entry : s.entry r
  unnamed : s.unnamed r.rid
  reported : r.earlyEnded = false ∧ r.detached = false ∧ r.failure = none
  armless : r.reachedArm = false

/-- The state such a request leaves: its report, its broken chain, and nothing else changed. -/
def endedAlone (s : State) (r : Request) (e : Ending) : State :=
  { s.onPort r.port (fun pr => told pr s [r] fun _ => e) with table := s.table.filter (·.rid != r.rid) }

theorem endedAlone_port (s : State) (r : Request) (e : Ending) (p : Port) :
    (endedAlone s r e).port p = told (s.port p) s ([r].filter fun q => decide (q.port = p)) fun _ => e :=
  port_onPort_told s r (fun _ => e) p

theorem conclude_alone (h : EndsAlone s r) (hc : e.cls ≠ .done) : s.conclude r.rid e = endedAlone s r e := by
  obtain ⟨he, hd, hf⟩ := h.reported
  have hplain : s.plain r := ⟨h.entry, he, hd, hf, h.unnamed.1, fun ha => by rw [h.armless] at ha; cases ha⟩
  have hrep : Laws.reported s r e = s.onPort r.port fun pr => told pr s [r] fun _ => e := by
    simp only [Laws.reported, told, h.armless, Bool.false_eq_true, hc, if_false, List.map_cons, List.map_nil,
      List.any_cons, List.any_nil, Bool.or_false, decide_eq_true_eq]
  have hreq : (Laws.reported s r e).request? r.rid = some r := by
    rw [hrep]
    exact request?_entry h.entry
  rw [conclude_plain hplain, leaveTable_unnamed hreq h.entry.2.2 hf (by rw [hrep]; exact h.unnamed), hrep]
  rfl

/-- Another of them ends for itself alone still. -/
theorem EndsAlone.after {q : Request} (h : EndsAlone s q) (hne : q.rid ≠ r.rid) : EndsAlone (endedAlone s r e) q where
  entry := ⟨List.mem_filter.2 ⟨h.entry.1, by simpa using hne⟩,
    fun x hx => h.entry.2.1 x (List.mem_of_mem_filter hx), h.entry.2.2⟩
  unnamed := ⟨fun x hx => h.unnamed.1 x (List.mem_of_mem_filter hx), h.unnamed.2⟩
  reported := h.reported
  armless := h.armless

/-- Such requests ended in order leave their reports and broken chains, and nothing else. -/
theorem foldl_conclude_alone (rs : List Request) (h : ∀ r ∈ rs, EndsAlone s r) (hn : (rs.map (·.rid)).Nodup)
    (hc : e.cls ≠ .done) :
    let t := rs.foldl (fun s r => s.conclude r.rid e) s
    t = { s with ports := t.ports, table := tableWithout rs s.table }
      ∧ ∀ p, t.port p = told (s.port p) s (rs.filter fun q => decide (q.port = p)) fun _ => e := by
  induction rs generalizing s with
  | nil => exact ⟨by rw [tableWithout_nil]; rfl, fun p => (told_nil _ _ _).symm⟩
  | cons r rs ih =>
    obtain ⟨hr, hn⟩ := List.nodup_cons.1 hn
    simp only [List.foldl_cons, conclude_alone (h r List.mem_cons_self) hc]
    obtain ⟨hframe, hport⟩ := ih (s := endedAlone s r e)
      (fun q hq => (h q (List.mem_cons_of_mem r hq)).after fun heq => hr (List.mem_map.2 ⟨q, hq, heq⟩)) hn
    refine ⟨?_, fun p => ?_⟩
    · conv_lhs => rw [hframe]
      have hsplit : r :: rs = [r] ++ rs := rfl
      rw [hsplit, tableWithout_append, tableWithout_singleton]
      rfl
    · rw [hport, told_congr (s := s) (t := endedAlone s r e) fun _ _ => rfl, endedAlone_port, told_append, ← List.filter_append]
      rfl

/-- In a table of rising places leaving by place is leaving by record. -/
theorem tableWithout_eq_filter_notMem {g l : List Request} (hrise : (l.map (·.rid)).Pairwise (· < ·)) (hg : ∀ r ∈ g, r ∈ l) :
    tableWithout g l = l.filter fun q => decide (q ∉ g) := by
  apply List.filter_congr
  intro q hq
  rw [Bool.eq_iff_iff]
  simp only [Bool.not_eq_true', List.any_eq_false, beq_iff_eq, decide_eq_true_eq]
  constructor
  · exact fun h hqg => h q hqg rfl
  · intro h r hr hrq
    exact h (eq_of_rid_eq hrise (hg r hr) hq hrq ▸ hr)

/-- The CLEAR FAULT requests of a clearing, ended after a change of the drive's record. -/
theorem clearers_end (h : s.clearsPlainly d) (hc : e.cls ≠ .done) {f : DriveRec → DriveRec}
    (hf : ∀ dr, (f dr).owner = dr.owner ∧ (f dr).labelUpdate = dr.labelUpdate ∧ (f dr).recCounts = dr.recCounts) :
    let t := (s.clearers d).foldl (fun s r => s.conclude r.rid e) (s.onDrive d f)
    t = { s.onDrive d f with ports := t.ports, table := s.table.filter fun q => decide (q ∉ s.clearers d) }
      ∧ ∀ p, t.port p = told (s.port p) s ((s.clearers d).filter fun q => decide (q.port = p)) fun _ => e := by
  obtain ⟨⟨_, hrise, _⟩, hclear⟩ := h
  have hsub : (s.clearers d).Sublist s.table := List.filter_sublist
  have hdrive : ∀ x, ((s.onDrive d f).drive x).owner = (s.drive x).owner
      ∧ ((s.onDrive d f).drive x).labelUpdate = (s.drive x).labelUpdate
      ∧ ((s.onDrive d f).drive x).recCounts = (s.drive x).recCounts := fun x => by
    by_cases hx : x = d
    · rw [hx, drive_onDrive_same]
      exact hf _
    · rw [drive_onDrive_other f hx]
      exact ⟨rfl, rfl, rfl⟩
  have halone : ∀ r ∈ s.clearers d, EndsAlone (s.onDrive d f) r := fun r hr => by
    obtain ⟨⟨hpred, howner, hrest⟩, he, hd, hfail, harm⟩ := hclear r hr
    have hkind : r.kind = .clearFault := by
      simpa using (Bool.and_eq_true_iff.1 (Bool.and_eq_true_iff.1 (List.mem_filter.1 hr).2).1).2
    refine ⟨⟨hsub.subset hr, fun q hq hqr => eq_of_rid_eq hrise hq (hsub.subset hr) hqr, by simp [hkind]⟩,
      ⟨hpred, fun x => ?_, hrest⟩, ⟨he, hd, hfail⟩, harm⟩
    rw [(hdrive x).1, (hdrive x).2.1]
    exact howner x
  have hnodup : ((s.clearers d).map (·.rid)).Nodup :=
    (hrise.sublist (hsub.map _)).imp fun hlt => Nat.ne_of_lt hlt
  obtain ⟨hframe, hport⟩ := foldl_conclude_alone (s.clearers d) halone hnodup hc
  refine ⟨?_, fun p => ?_⟩
  · rw [← tableWithout_eq_filter_notMem hrise hsub.subset]
    exact hframe
  · rw [hport]
    exact told_congr fun q _ => by unfold State.recoveredCount; rw [(hdrive q.drive).2.2]

/-- What the end of a drive's clearing leaves, whatever becomes of the drive's record and of the notices after it. -/
theorem clearedOut_of {g : List Request} (hv : v = { s with drives := v.drives, ports := v.ports, table := v.table })
    (htable : v.table = s.table.filter fun q => decide (q ∉ g)) (hx : ∀ x : Drive, x ≠ d → v.drive x = s.drive x)
    (hp : ∀ p, v.port p = { told (s.port p) s (g.filter fun q => decide (q.port = p)) (fun _ => e) with
      notices := (v.port p).notices, noticeLine := (v.port p).noticeLine }) : s.clearedOut v d g e := by
  refine ⟨?_, hx, hp⟩
  rw [← htable]
  exact hv

end
end Sys2Proof.Proofs

/-! ### The levels a spindle presents (R19, R32 to R34, R41) -/

namespace Sys2Proof.Proofs
open Sys2Proof Sys2Proof.Machine Sys2Proof.Laws

section
variable {s t u : State} {d : Drive} {f : DriveRec → DriveRec}

/-! #### The events where they apply -/

theorem exec_doorOpened (hp : s.powered = true) (hs : (s.drive d).state ≠ .absent) (hd : (s.drive d).doorClosed = true) :
    exec (.doorOpened d) s = .next (s.close ((s.onDrive d fun dr => { dr with doorClosed := false }).opened d)) := by
  show execDoorOpened d s = _
  simp [execDoorOpened, live_powered hp, hs, hd]

theorem exec_packRemoved (hp : s.powered = true) (hs : (s.drive d).state ≠ .absent) (hk : (s.drive d).packSeated = true) :
    exec (.packRemoved d) s =
      .next (s.close (((s.onDrive d fun dr => { dr with packSeated := false }).opened d).packGone d)) := by
  show execPackRemoved d s = _
  simp [execPackRemoved, live_powered hp, hs, hk]

theorem exec_doorClosed (hp : s.powered = true) (hs : (s.drive d).state ≠ .absent) :
    exec (.doorClosed d) s = .next (s.close (s.onDrive d fun dr => { dr with doorClosed := true })) := by
  show execDoorClosed d s = _
  simp [execDoorClosed, live_powered hp, hs]

theorem exec_packSeated (hp : s.powered = true) (hs : (s.drive d).state ≠ .absent) (hk : (s.drive d).packSeated = false)
    (pk : Pack) :
    exec (.packSeated d pk) s =
      .next (s.close (s.onDrive d fun dr => { dr with packSeated := true, pack := some pk })) := by
  show execPackSeated d pk s = _
  simp [execPackSeated, live_powered hp, hs, hk]

theorem exec_writeFaultRaised (hp : s.powered = true) (hs : (s.drive d).state ≠ .absent) :
    exec (.writeFaultRaised d) s =
      .next (s.close ((s.onDrive d fun dr => { dr with writeFault := true }).faultIfRecording d)) := by
  show execWriteFaultRaised d s = _
  simp [execWriteFaultRaised, live_powered hp, hs]

/-! #### The door opened or the pack gone, by the drive's state -/

/-- At a drive READY, STARTING or LOADING the door stops it (R35). -/
theorem opened_running (h : (s.drive d).state = .ready ∨ (s.drive d).state = .starting ∨ (s.drive d).state = .loading) :
    s.opened d = s.stopDrive d none := by
  unfold State.opened
  rcases h with h | h | h <;> simp only [h]

/-- At a drive STOPPED or STOPPING the door changes nothing further. -/
theorem opened_resting (h : (s.drive d).state = .stopped ∨ (s.drive d).state = .stopping) : s.opened d = s := by
  unfold State.opened
  rcases h with h | h <;> simp only [h]

/-- At a FAULTED drive the door cuts a clearing, and the motor coasts (R40, R41). -/
theorem opened_faulted (h : (s.drive d).state = .faulted) : s.opened d =
    (s.cutClearing d).onDrive d fun dr => { dr with motor := if dr.motor = .atSpeed then .coasting else dr.motor } := by
  unfold State.opened
  simp only [h]

theorem packGone_stopping (h : (s.drive d).state = .stopping) :
    s.packGone d = s.onDrive d fun dr => { dr with pack := none, packLeft := true } := by
  unfold State.packGone
  exact onDrive_congr (by simp [h])

theorem packGone_other (h : (s.drive d).state ≠ .stopping) : s.packGone d = s.onDrive d fun dr =>
    { dr with pack := none, serial := none, map := MapRec.initial, suspects := [] } := by
  unfold State.packGone
  exact onDrive_congr (by simp [h, DriveRec.discardMap])

/-! #### Fan-outs and clearings seen past a change of the drive's own record -/

theorem fansPlainly_onDrive (h : s.fansPlainly d) (hl : (f (s.drive d)).labelUpdate = (s.drive d).labelUpdate) :
    (s.onDrive d f).fansPlainly d :=
  ⟨h.1, by rw [drive_onDrive_same, hl]; exact h.2.1, h.2.2⟩

theorem fannedOut_onDrive {e : Ending} {kept : Request → Bool} (h : s.fannedOut t d e kept) :
    s.fannedOut (t.onDrive d f) d e kept := by
  obtain ⟨hframe, hport, hseg, hgone, hother⟩ := h
  refine ⟨?_, hport, hseg, hgone, fun x hx => by rw [drive_onDrive_other f hx, hother x hx]⟩
  conv_lhs => rw [hframe]
  rfl

theorem clearedOut_onDrive {e : Ending} {g : List Request} (h : s.clearedOut t d g e) :
    s.clearedOut (t.onDrive d f) d g e := by
  obtain ⟨hframe, hother, hport⟩ := h
  refine ⟨?_, fun x hx => by rw [drive_onDrive_other f hx, hother x hx], hport⟩
  conv_lhs => rw [hframe]
  rfl

/-! #### The door and the pack at a FAULTED drive (R40, R41) -/

/-- A drive's record with its door and pack levels set. -/
def atLevels (door pack : Bool) (dr : DriveRec) : DriveRec := { dr with doorClosed := door, packSeated := pack }

/-- A drive's record with its clearing ended. -/
def clearingOff (dr : DriveRec) : DriveRec := { dr with arm := .idle, recalTimer := none, clearing := false }

/-- A drive's record with a clearing, where one is in progress, cut. -/
def clearingCut (dr : DriveRec) : DriveRec :=
  { dr with
    clearing := false, arm := if dr.clearing then .idle else dr.arm
    recalTimer := if dr.clearing then none else dr.recalTimer }

/-- A FAULTED drive's record as the door or the pack leaves it: a clearing cut, the motor coasting. -/
def coasted (dr : DriveRec) : DriveRec :=
  { clearingCut dr with motor := if dr.motor = .atSpeed then .coasting else dr.motor }

/-- The requests the cut of a clearing ends. -/
def cutClearers (s : State) (d : Drive) : List Request := if (s.drive d).clearing then s.clearers d else []

/-- A clearing, where one is in progress, cut after a change of the levels: its requests end ABANDONED DRIVE_STOPPED. -/
theorem cutClearing_spec (h : (s.drive d).clearing = true → s.clearsPlainly d) (door pack : Bool) :
    let t := (s.onDrive d (atLevels door pack)).cutClearing d
    s.clearedOut t d (cutClearers s d) (Ending.make .abandoned .driveStopped)
      ∧ t.drive d = clearingCut (atLevels door pack (s.drive d))
      ∧ ∀ p, (t.port p).notices = (s.port p).notices ∧ (t.port p).noticeLine = (s.port p).noticeLine := by
  cases hc : (s.drive d).clearing with
  | false =>
    have hcut : (s.onDrive d (atLevels door pack)).cutClearing d = s.onDrive d (atLevels door pack) := by
      simp [State.cutClearing, atLevels, hc]
    have hg : cutClearers s d = [] := by simp [cutClearers, hc]
    simp only [hcut, hg]
    refine ⟨clearedOut_of (by rfl) (by simp) (fun x hx => drive_onDrive_other _ hx) fun p => ?_, ?_, fun p => ⟨rfl, rfl⟩⟩
    · simp [told_nil]
    · rw [drive_onDrive_same]
      simp [clearingCut, atLevels, hc]
  | true =>
    have hcut : (s.onDrive d (atLevels door pack)).cutClearing d =
        (s.clearers d).foldl (fun s r => s.conclude r.rid (Ending.make .abandoned .driveStopped))
          (s.onDrive d fun dr => clearingOff (atLevels door pack dr)) := by
      rw [← onDrive_onDrive (atLevels door pack) clearingOff]
      simp only [State.cutClearing, drive_onDrive_same, atLevels, hc, if_true]
      rfl
    have hg : cutClearers s d = s.clearers d := by simp [cutClearers, hc]
    obtain ⟨hframe, hport⟩ := clearers_end (h hc) (e := Ending.make .abandoned .driveStopped) (by simp [Ending.make])
      (f := fun dr => clearingOff (atLevels door pack dr)) fun _ => ⟨rfl, rfl, rfl⟩
    simp only [hcut, hg]
    generalize List.foldl _ _ (s.clearers d) = t at *
    have hdrives : ∀ x, t.drive x = (s.onDrive d fun dr => clearingOff (atLevels door pack dr)).drive x := fun x => by
      rw [hframe]
      rfl
    refine ⟨clearedOut_of ?_ (by rw [hframe]) (fun x hx => ?_) fun p => ?_, ?_, fun p => ?_⟩
    · rw [hframe]
      rfl
    · rw [hdrives, drive_onDrive_other _ hx]
    · rw [hport]
    · rw [hdrives, drive_onDrive_same]
      simp [clearingOff, clearingCut, atLevels, hc]
    · rw [hport]
      exact ⟨rfl, rfl⟩

/-- The door opened or the pack removed at a FAULTED drive, its levels set. -/
theorem opened_faulted_spec (hf : (s.drive d).state = .faulted) (h : (s.drive d).clearing = true → s.clearsPlainly d)
    (door pack : Bool) :
    let t := (s.onDrive d (atLevels door pack)).opened d
    s.clearedOut t d (cutClearers s d) (Ending.make .abandoned .driveStopped)
      ∧ t.drive d = coasted (atLevels door pack (s.drive d))
      ∧ ∀ p, (t.port p).notices = (s.port p).notices ∧ (t.port p).noticeLine = (s.port p).noticeLine := by
  obtain ⟨hout, hdrive, hport⟩ := cutClearing_spec h door pack
  have hopen := opened_faulted (s := s.onDrive d (atLevels door pack)) (d := d) (by rw [drive_onDrive_same]; exact hf)
  simp only [hopen]
  refine ⟨clearedOut_onDrive hout, ?_, hport⟩
  rw [drive_onDrive_same, hdrive]
  rfl

/-- The events of the door and the pack at a FAULTED drive. -/
theorem levels_faulted (hp : s.powered = true) (hf : (s.drive d).state = .faulted)
    (h : (s.drive d).clearing = true → s.clearsPlainly d) :
    ((s.drive d).doorClosed = true → ∃ t, exec (.doorOpened d) s = .next (s.close t)
      ∧ (s.clearedOut t d (cutClearers s d) (Ending.make .abandoned .driveStopped)
        ∧ ∀ p, (t.port p).notices = (s.port p).notices ∧ (t.port p).noticeLine = (s.port p).noticeLine)
      ∧ t.drive d = { coasted (s.drive d) with doorClosed := false })
    ∧ ((s.drive d).packSeated = true → ∃ t, exec (.packRemoved d) s = .next (s.close t)
      ∧ (s.clearedOut t d (cutClearers s d) (Ending.make .abandoned .driveStopped)
        ∧ ∀ p, (t.port p).notices = (s.port p).notices ∧ (t.port p).noticeLine = (s.port p).noticeLine)
      ∧ t.drive d = { coasted (s.drive d) with
          packSeated := false, pack := none, serial := none, map := MapRec.initial, suspects := [] }) := by
  have hpresent : (s.drive d).state ≠ .absent := by simp [hf]
  constructor
  · intro hd
    obtain ⟨hout, hdrive, hport⟩ := opened_faulted_spec hf h false (s.drive d).packSeated
    have hset : s.onDrive d (fun dr => { dr with doorClosed := false }) =
        s.onDrive d (atLevels false (s.drive d).packSeated) := onDrive_congr rfl
    exact ⟨_, by rw [exec_doorOpened hp hpresent hd, hset], ⟨hout, hport⟩, hdrive⟩
  · intro hk
    obtain ⟨hout, hdrive, hport⟩ := opened_faulted_spec hf h (s.drive d).doorClosed false
    have hset : s.onDrive d (fun dr => { dr with packSeated := false }) =
        s.onDrive d (atLevels (s.drive d).doorClosed false) := onDrive_congr rfl
    refine ⟨_, by rw [exec_packRemoved hp hpresent hk, hset, packGone_other (by rw [hdrive]; simp [coasted, clearingCut, atLevels, hf])],
      ⟨clearedOut_onDrive hout, hport⟩, ?_⟩
    rw [drive_onDrive_same, hdrive]
    rfl

/-! #### The door and the pack at a drive in use (R34, R35) -/

/-- What a stop by the door or the pack leaves of the requests, the deferred records and the notices. -/
def stoppedBy (s u t : State) (d : Drive) : Prop :=
  u.fannedOut t d (Ending.make .abandoned .driveStopped) (fun _ => false)
    ∧ ∀ x : Port, ofPort (t.drive d).deferred x = u.foldedRecord d x
      ∧ (t.port x).notices = u.foldedNotices d x
      ∧ (t.port x).noticeLine =
          if u.foldsAnew d x then (s.port x).settings.noticeLineEnable else (s.port x).noticeLine

/-- The events of the door and the pack at a drive READY, STARTING or LOADING, unreserved: it stops. -/
theorem levels_running (hp : s.powered = true)
    (hs : (s.drive d).state = .ready ∨ (s.drive d).state = .starting ∨ (s.drive d).state = .loading)
    (ho : (s.drive d).unit.owner = none) (h : s.fansPlainly d) :
    ((s.drive d).doorClosed = true →
      let u := s.onDrive d fun dr => { dr with doorClosed := false }
      ∃ t, exec (.doorOpened d) s = .next (s.close t) ∧ stoppedBy s u t d ∧ u.packCut d (t.drive d).pack
        ∧ t.drive d = { (u.drive d).still with
            state := .stopping, motor := .coasting, deferred := (t.drive d).deferred, pack := (t.drive d).pack })
    ∧ ((s.drive d).packSeated = true →
      let u := s.onDrive d fun dr => { dr with packSeated := false }
      ∃ t, exec (.packRemoved d) s = .next (s.close t) ∧ stoppedBy s u t d
        ∧ t.drive d = { (u.drive d).still with
            state := .stopping, motor := .coasting, deferred := (t.drive d).deferred, pack := none, packLeft := true }) := by
  have hpresent : (s.drive d).state ≠ .absent := by rcases hs with h | h | h <;> simp [h]
  constructor
  · intro hd u
    have hu : (u.drive d).state = (s.drive d).state := by rw [drive_onDrive_same]
    obtain ⟨hout, hdrive, hcut, hrest⟩ := stopDrive_spec (s := u) (except := none) (fansPlainly_onDrive h rfl)
      (by rw [drive_onDrive_same]; exact ho) (kept := fun _ => false) (fun _ _ _ _ => rfl) fun _ _ _ _ => rfl
    exact ⟨u.stopDrive d none, by rw [exec_doorOpened hp hpresent hd, opened_running (hu ▸ hs)],
      ⟨hout, hrest⟩, hcut, hdrive⟩
  · intro hk u
    have hu : (u.drive d).state = (s.drive d).state := by rw [drive_onDrive_same]
    obtain ⟨hout, hdrive, -, hrest⟩ := stopDrive_spec (s := u) (except := none) (fansPlainly_onDrive h rfl)
      (by rw [drive_onDrive_same]; exact ho) (kept := fun _ => false) (fun _ _ _ _ => rfl) fun _ _ _ _ => rfl
    have hstop : ((u.stopDrive d none).drive d).state = .stopping := by rw [hdrive]
    have hexec := exec_packRemoved hp hpresent hk
    rw [opened_running (hu ▸ hs), packGone_stopping hstop] at hexec
    generalize u.stopDrive d none = v at *
    refine ⟨_, hexec, ⟨fannedOut_onDrive hout, fun x => ?_⟩, ?_⟩
    · rw [drive_onDrive_same]
      exact hrest x
    · rw [drive_onDrive_same]
      conv_lhs => rw [hdrive]

/-! #### Write fault (R32) -/

theorem recording_onDrive (ho : (f (s.drive d)).owner = (s.drive d).owner)
    (hl : (f (s.drive d)).labelUpdate = (s.drive d).labelUpdate) (hm : (f (s.drive d)).map = (s.drive d).map) :
    (s.onDrive d f).recording d = s.recording d := by
  refine recording_congr rfl (by rw [drive_onDrive_same, ho]) (onDrive_labelUpdate hl) fun e => ?_
  by_cases he : e = d
  · rw [he, drive_onDrive_same, hm]
  · rw [drive_onDrive_other f he]

/-- Write fault raised with no leg recording changes its own level (R32). -/
theorem writeFaultRaised_idle (hp : s.powered = true) (hs : (s.drive d).state ≠ .absent) (hq : s.quiet)
    (hr : s.recording d = none) :
    exec (.writeFaultRaised d) s = .next (State.flush (s.onDrive d fun dr => { dr with writeFault := true })) := by
  have hnone : (s.onDrive d fun dr => { dr with writeFault := true }).faultIfRecording d =
      s.onDrive d fun dr => { dr with writeFault := true } := by
    unfold State.faultIfRecording
    rw [recording_onDrive rfl rfl rfl, hr]
  rw [exec_writeFaultRaised hp hs, hnone, close_quiet (quiet_onDrive hq rfl id Iff.rfl fun _ => id)]

/-- Write fault raised while a leg records faults the drive (R32). -/
theorem writeFaultRaised_recording (hp : s.powered = true) (hs : (s.drive d).state ≠ .absent) {r : Request}
    (hr : s.recording d = some r) (hk : r.kind ≠ .labelUpdate) (h : s.fansPlainly d) :
    ∃ t, exec (.writeFaultRaised d) s = .next (s.close t)
      ∧ (s.onDrive d fun dr => { dr with writeFault := true }).faultedBy t d .writeFault (some (r.port, r.tag)) := by
  have hfault : (s.onDrive d fun dr => { dr with writeFault := true }).faultIfRecording d =
      (s.onDrive d fun dr => { dr with writeFault := true }).faultDrive d .writeFault (some r) := by
    unfold State.faultIfRecording
    rw [recording_onDrive rfl rfl rfl, hr]
  refine ⟨_, by rw [exec_writeFaultRaised hp hs, hfault], ?_⟩
  rw [← faultOwner_some hk]
  exact faultDrive_spec (fansPlainly_onDrive h rfl) (by decide) (some r)

/-! #### The door and the pack in a quiet string (R21, R34) -/

/-- The door and the pack at a STOPPING drive change their levels alone, the pack leaving at rest. -/
theorem levels_stopping (hp : s.powered = true) (hq : s.quiet) (hs : (s.drive d).state = .stopping) :
    ((s.drive d).doorClosed = true →
      exec (.doorOpened d) s = .next (State.flush (s.onDrive d fun dr => { dr with doorClosed := false })))
    ∧ ((s.drive d).packSeated = true →
      exec (.packRemoved d) s = .next (State.flush (s.onDrive d fun dr =>
        { dr with packSeated := false, pack := none, packLeft := true }))) := by
  have hpresent : (s.drive d).state ≠ .absent := by simp [hs]
  constructor
  · intro hd
    rw [exec_doorOpened hp hpresent hd, opened_resting (.inr (by rw [drive_onDrive_same]; exact hs)), close_quiet]
    exact quiet_onDrive hq rfl id Iff.rfl fun _ hm => by simp [mayStart, hs] at hm
  · intro hk
    rw [exec_packRemoved hp hpresent hk, opened_resting (.inr (by rw [drive_onDrive_same]; exact hs)),
      packGone_stopping (by rw [drive_onDrive_same]; exact hs), onDrive_onDrive, close_quiet]
    exact quiet_onDrive hq rfl id Iff.rfl fun _ hm => by simp [mayStart, hs] at hm

/-- The one entry of a list that meets a test is the one found. -/
theorem find?_eq_some_of_unique {α : Type} {l : List α} {p : α → Bool} {a : α} (ha : a ∈ l) (hp : p a = true)
    (h : ∀ b ∈ l, p b = true → b = a) : l.find? p = some a := by
  cases hf : l.find? p with
  | none => exact absurd hp (List.find?_eq_none.1 hf a ha)
  | some b => rw [h b (List.mem_of_find?_eq_some hf) (List.find?_some hf)]

/-- A door or pack event that lets a STOPPED drive of the start list start starts it at once (R21). -/
theorem close_levels_start (hq : s.quiet) (hin : d ∈ s.startList) (hs : (s.drive d).state = .stopped) (hg : s.gateOpen = true)
    (hc : startingCount s < 2) (hl : (f (s.drive d)).labelUpdate = (s.drive d).labelUpdate)
    (hst : (f (s.drive d)).state = (s.drive d).state) (hm : mayStart (f (s.drive d)) = true) :
    s.close (s.onDrive d f) = State.flush
      ({ s with startList := s.startList.filter (· != d), gateOpen := false, gapTimer := some 8000000 }.onDrive d
        fun dr => { f dr with state := .starting, motor := .accelerating, spinTimer := some 45000000 }) := by
  have hidle : (s.onDrive d f).idle := idle_onDrive hq.1 hl fun ha => by
    simp [DriveRec.armFree, hst, hs] at ha
  have hstart : (s.onDrive d f).startable = some d := by
    have hcount : startingCount (s.onDrive d f) = startingCount s := startingCount_onDrive (by rw [hst])
    rw [startable_eq, if_pos ⟨hg, hcount ▸ hc⟩]
    show s.startList.find? _ = some d
    refine find?_eq_some_of_unique hin (by rw [drive_onDrive_same]; exact hm) fun e he hstarts => ?_
    by_contra hed
    rw [drive_onDrive_other f hed, startable_eq_none.1 hq.2 hg hc e he] at hstarts
    cases hstarts
  rw [close_start hidle hstart]
  exact congrArg State.flush (onDrive_onDrive
    (s := { s with startList := s.startList.filter (· != d), gateOpen := false, gapTimer := some 8000000 }) f _)

/-- The door and the pack at a STOPPED drive that is not to be started change their own levels, the pack taking serial and
map (R34). -/
theorem levels_stopped (hp : s.powered = true) (hq : s.quiet) (hs : (s.drive d).state = .stopped) (hout : d ∉ s.startList) :
    ((s.drive d).doorClosed = true →
      exec (.doorOpened d) s = .next (State.flush (s.onDrive d fun dr => { dr with doorClosed := false })))
    ∧ ((s.drive d).packSeated = true →
      exec (.packRemoved d) s = .next (State.flush (s.onDrive d fun dr =>
        { dr with packSeated := false, pack := none, serial := none, map := MapRec.initial, suspects := [] }))) := by
  have hpresent : (s.drive d).state ≠ .absent := by simp [hs]
  constructor
  · intro hd
    rw [exec_doorOpened hp hpresent hd, opened_resting (.inl (by rw [drive_onDrive_same]; exact hs)), close_quiet]
    exact quiet_onDrive hq rfl id Iff.rfl fun hin => absurd hin hout
  · intro hk
    rw [exec_packRemoved hp hpresent hk, opened_resting (.inl (by rw [drive_onDrive_same]; exact hs)),
      packGone_other (by rw [drive_onDrive_same]; simp [hs]), onDrive_onDrive, close_quiet]
    exact quiet_onDrive hq rfl id Iff.rfl fun hin => absurd hin hout

theorem recording_ownerless (h : (s.drive d).owner = none) : s.recording d = none := by
  simp [State.recording, State.owner?, h]

/-- A drive's record as the stop leaves it where it has no arm owner to give up (R35). -/
def parked (dr : DriveRec) : DriveRec :=
  { dr with
    state := .stopping, motor := .coasting, arm := .idle, spinTimer := none, seekTimer := none, recalTimer := none
    retryMark := false, clearing := false, load := LoadRec.initial }

theorem stopped_eq_parked {dr : DriveRec} (h : dr.owner = none) : stopped dr = parked dr := by
  unfold stopped parked DriveRec.haltArm
  rw [← h]

/-- The stop of an unused, unreserved drive stops its motor, arm and timers, and nothing else (R35). -/
theorem stopDrive_unused (h : s.unused d) (hu : (s.drive d).unit.owner = none) (except : Option Nat) :
    s.stopDrive d except = s.onDrive d parked := by
  obtain ⟨htable, howner, hlabel⟩ := h
  have hempty : ∀ f, (s.onDrive d f).fanOut d = [] := fun f => by
    simp only [State.fanOut, List.map_eq_nil_iff, List.filter_eq_nil_iff]
    exact fun q hq => by simp [htable q hq]
  have hfan : fannedFrom s d stopped (fun _ rid => except != some rid) (Ending.make .abandoned .driveStopped) =
      s.onDrive d stopped := by
    simp only [fannedFrom, cutLeg_of_none (recording_ownerless howner), foldEarly_eq, hempty, List.foldl_nil,
      List.filter_nil]
  rw [stopDrive_eq, hfan, dropLabelUpdate_none (by rw [drive_onDrive_same]; exact hlabel),
    loseReservation_none (by rw [drive_onDrive_same]; exact hu)]
  exact onDrive_congr (stopped_eq_parked howner)

/-- The door and the pack at an unused READY drive stop it (R35). -/
theorem levels_unused (hp : s.powered = true) (hq : s.quiet) (hs : (s.drive d).state = .ready) (h : s.unused d)
    (hu : (s.drive d).unit.owner = none) :
    ((s.drive d).doorClosed = true →
      exec (.doorOpened d) s = .next (State.flush (s.onDrive d fun dr => { parked dr with doorClosed := false })))
    ∧ ((s.drive d).packSeated = true →
      exec (.packRemoved d) s = .next (State.flush (s.onDrive d fun dr =>
        { parked dr with packSeated := false, pack := none, packLeft := true }))) := by
  have hpresent : (s.drive d).state ≠ .absent := by simp [hs]
  have hstop : ∀ {f : DriveRec → DriveRec}, (f (s.drive d)).state = (s.drive d).state →
      (f (s.drive d)).owner = (s.drive d).owner → (f (s.drive d)).labelUpdate = (s.drive d).labelUpdate →
      (f (s.drive d)).unit = (s.drive d).unit → (s.onDrive d f).opened d = s.onDrive d fun dr => parked (f dr) := by
    intro f h1 h2 h3 h4
    rw [opened_running (.inl (by rw [drive_onDrive_same, h1, hs])), ← onDrive_onDrive f parked]
    apply stopDrive_unused
    · exact ⟨h.1, by rw [drive_onDrive_same, h2]; exact h.2.1, by rw [drive_onDrive_same, h3]; exact h.2.2⟩
    · rw [drive_onDrive_same, h4, hu]
  constructor
  · intro hd
    rw [exec_doorOpened hp hpresent hd, hstop rfl rfl rfl rfl, close_quiet]
    · rfl
    · exact quiet_onDrive hq rfl (fun ha => by simp [DriveRec.armFree, parked] at ha) (by simp [parked, hs]) fun _ hm => by
        simp [mayStart, parked] at hm
  · intro hk
    rw [exec_packRemoved hp hpresent hk, hstop rfl rfl rfl rfl,
      packGone_stopping (by rw [drive_onDrive_same]; rfl), onDrive_onDrive, close_quiet]
    · rfl
    · exact quiet_onDrive hq rfl (fun ha => by simp [DriveRec.armFree, parked] at ha) (by simp [parked, hs]) fun _ hm => by
        simp [mayStart, parked] at hm

/-- A level change that neither frees an arm nor lets the drive start is followed by nothing. -/
theorem close_levels_unlisted (hq : s.quiet) (hout : d ∉ s.startList) (hl : (f (s.drive d)).labelUpdate = (s.drive d).labelUpdate)
    (hs : (f (s.drive d)).state = (s.drive d).state) (ha : (f (s.drive d)).armFree = (s.drive d).armFree) :
    s.close (s.onDrive d f) = State.flush (s.onDrive d f) :=
  close_quiet (quiet_onDrive hq hl (by rw [ha]; exact id) (by rw [hs]) fun hin => absurd hin hout)

/-- A spindle appearing on an ABSENT drive's cable is sensed (R19). -/
theorem exec_spindleSensed (hp : s.powered = true) (x : SpindleSense) (hs : (s.drive d).state = .absent)
    (hx : x.present = true) : exec (.spindleSensed d x) s = .next (s.onDrive d fun dr => dr.sensed x) := by
  show execSpindleSensed d x s = _
  simp [execSpindleSensed, live_powered hp, hs, hx]

end

/-- Settles O53, clause by clause: each by the lemma of the drive's state. -/
theorem levelsTaken : Obligations.LevelsTaken := by
  intro d s hp
  refine ⟨fun x hs hx => ?_, fun hs => ⟨fun b => ?_, ?_, fun hq hr => writeFaultRaised_idle hp hs hq hr,
    fun r hr hk h => writeFaultRaised_recording hp hs hr hk h, fun hst ho h => levels_running hp hst ho h,
    fun hst h => levels_faulted hp hst h, fun hq hst => levels_stopping hp hq hst, fun hq hin hst hg hc => ?_,
    fun hq hout => ?_⟩⟩
  · have hexec := exec_spindleSensed hp x hs hx
    have hset : (s.onDrive d fun dr => dr.sensed x) = s.onDrive d fun dr => { dr with
        state := .stopped, motor := .off, arm := .idle, pack := ((s.drive d).sensed x).pack
        packSeated := ((s.drive d).sensed x).pack.isSome, doorClosed := x.doorClosed, writeProtect := x.writeProtect
        writeFault := x.writeFault, startStrap := x.startStrap } := onDrive_congr rfl
    refine ⟨_, hset ▸ hexec, fun q hq => ?_, fun hq => ?_, fun hq => ?_⟩ <;> simp [DriveRec.sensed, hq]
  · show execWriteProtectChange d b s = _
    simp [execWriteProtectChange, live_powered hp, hs]
  · show execWriteFaultDropped d s = _
    simp [execWriteFaultDropped, live_powered hp, hs]
  · refine ⟨fun hk => ?_, fun pk hk hd => ?_⟩
    · rw [exec_doorClosed hp hs]
      exact congrArg _ (close_levels_start hq hin hst hg hc rfl rfl (by simp [mayStart, hst, hk]))
    · rw [exec_packSeated hp hs hk]
      exact congrArg _ (close_levels_start hq hin hst hg hc rfl rfl (by simp [mayStart, hst, hd]))
  · refine ⟨?_, fun pk hk => ?_, fun hst => levels_stopped hp hq hst hout, fun hst h hu => levels_unused hp hq hst h hu⟩
    · rw [exec_doorClosed hp hs]
      exact congrArg _ (close_levels_unlisted hq hout rfl rfl rfl)
    · rw [exec_packSeated hp hs hk]
      exact congrArg _ (close_levels_unlisted hq hout rfl rfl rfl)

end Sys2Proof.Proofs

/-! ### STOP DRIVE (R35, R36) -/

namespace Sys2Proof.Proofs
open Sys2Proof Sys2Proof.Machine Sys2Proof.Laws

section
variable {s : State} {p : Port} {f : RequestFrame} {d : Drive} {o : Operands}

/-- The STOP DRIVE as it stands in the table, and the state with it entered (R50, R54). -/
def stopRequest (s : State) (p : Port) (f : RequestFrame) (d : Drive) (o : Operands) : Request :=
  { s.newRequest p d .stopDrive f o with state := .controlWait }

def stopEntered (s : State) (p : Port) (f : RequestFrame) (d : Drive) (o : Operands) : State :=
  { s.onPort p fun pr => { pr with
      marker := if f.chain then some { member := some (stopRequest s p f d o).rid, drive := d, standing := .unended } else none }
    with table := s.table ++ [stopRequest s p f d o], nextOrder := s.nextOrder + 1 }

@[simp] theorem stopEntered_drive (e : Drive) : (stopEntered s p f d o).drive e = s.drive e := rfl

/-- A STOP DRIVE that passes the checks of a READY drive, in no chain, is entered and stops the drive. -/
theorem exec_stopDrive (h : s.passes .stopDrive p f d o) (hm : (s.port p).marker = none) :
    exec (.stopDrive p f) s = .next (s.close ((stopEntered s p f d o).stopDrive d (some s.nextOrder))) := by
  have hready := h.2.1
  have hexec : exec (.stopDrive p f) s = .next (State.acceptEntry .stopDrive p f s d o) := by
    show s.live _ = _
    rw [live_powered (reaches_powered h.1), arrival_reaches h.1 (by decide), driveChecks_passes h (by decide)]
  rw [hexec]
  simp only [State.acceptEntry, State.memberStanding, hm, Option.map_none]
  refine congrArg Host.Outcome.next ?_
  have hbegin : State.beginStop (stopEntered s p f d o) s.nextOrder d =
      ((stopEntered s p f d o).stopDrive d (some s.nextOrder), none) := by
    simp only [State.beginStop, stopEntered_drive, hready]
  show (match State.beginStop (stopEntered s p f d o) s.nextOrder d with
    | (t, none) => s.close t
    | (t, some e) => s.close (t.conclude s.nextOrder e)) = _
  rw [hbegin]

theorem foldl_unmoved {α β : Type} {f : α → β → α} {a : α} (l : List β) (h : ∀ b ∈ l, f a b = a) : l.foldl f a = a := by
  induction l with
  | nil => rfl
  | cons b l ih =>
    rw [List.foldl_cons, h b (by simp)]
    exact ih fun c hc => h c (by simp [hc])

/-- Where the STOP DRIVE is the only request of the drive, its stop folds and ends nothing (R35). -/
theorem stopDrive_alone {n : Nat} (hn : ∀ q ∈ s.table, q.drive = d → q.rid = n)
    (he : ∀ r, s.request? n = some r → r.earlyEnded = false) (ho : (s.drive d).owner = none)
    (hl : (s.drive d).labelUpdate = none) : s.stopDrive d (some n) = (s.onDrive d parked).loseReservation d := by
  have hfanOut : ∀ rid ∈ (s.onDrive d stopped).fanOut d, rid = n := by
    intro rid hrid
    simp only [State.fanOut, List.mem_map, List.mem_filter, Bool.and_eq_true, decide_eq_true_eq] at hrid
    obtain ⟨q, ⟨hq, hqd, -⟩, rfl⟩ := hrid
    exact hn q hq hqd
  have hfold : (s.onDrive d stopped).foldEarly d = s.onDrive d stopped := by
    rw [foldEarly_eq]
    refine foldl_unmoved _ fun rid hrid => ?_
    rw [hfanOut rid hrid, earlyStep, request?_onDrive (by rfl)]
    split
    · next r hr => simp [he r hr]
    · rfl
  have hnone : ((s.onDrive d stopped).fanOut d).filter (fun rid => some n != some rid) = [] :=
    List.filter_eq_nil_iff.2 fun rid hrid => by simp [hfanOut rid hrid]
  have hfan : fannedFrom s d stopped (fun _ rid => some n != some rid) (Ending.make .abandoned .driveStopped) =
      s.onDrive d stopped := by
    simp only [fannedFrom, cutLeg_of_none (recording_ownerless ho), hfold, hnone, List.foldl_nil]
  rw [stopDrive_eq, hfan, dropLabelUpdate_none (by rw [drive_onDrive_same]; exact hl), onDrive_congr (stopped_eq_parked ho)]

/-- A reservation lost: RESERVATION_LOST to its owner, DRIVE_FREE to each wanted port, and the wanted set emptied (R159). -/
theorem loseReservation_some {q : Port} (h : (s.drive d).unit.owner = some q) :
    let t := s.loseReservation d
    t = { s.onDrive d fun dr =>
        { dr with unit := { dr.unit with owner := none, wanted := Vector.replicate 4 false } } with ports := t.ports }
    ∧ ∀ x : Port,
        let told := if x = q then (s.port x).posted .reservationLost (.drive d) .none else s.port x
        t.port x = if ofPort (s.drive d).unit.wanted x = true then told.posted .driveFree (.drive d) .none else told := by
  have hlose : s.loseReservation d = ((s.post q .reservationLost (.drive d) .none).onDrive d fun dr =>
      { dr with unit := { dr.unit with owner := none } }).freeWanted d := by
    unfold State.loseReservation
    rw [h]
    rfl
  obtain ⟨t, ht, hframe, hports⟩ := freeWanted_eq
    (s := (s.post q .reservationLost (.drive d) .none).onDrive d fun dr => { dr with unit := { dr.unit with owner := none } })
    (d := d)
  rw [hlose, ht]
  refine ⟨?_, fun x => ?_⟩
  · rw [hframe, onDrive_onDrive, post_eq]
    rfl
  · have hwanted : (((s.post q .reservationLost (.drive d) .none).onDrive d fun dr =>
        { dr with unit := { dr.unit with owner := none } }).drive d).unit.wanted = (s.drive d).unit.wanted := by
      rw [drive_onDrive_same, post_eq, onPort_drive]
    rw [hports, hwanted, onDrive_port, post_eq]
    by_cases hx : x = q
    · subst hx
      simp [port_onPort_same]
    · simp [hx, port_onPort_other]

/-- The open-chain marker is all of its port that an entered request changes (R54). -/
theorem stopEntered_line (x : Port) : ((stopEntered s p f d o).port x).noticeLine = (s.port x).noticeLine
    ∧ ((stopEntered s p f d o).port x).settings = (s.port x).settings := by
  have hport : ∀ g : PortRec → PortRec, (∀ pr, (g pr).noticeLine = pr.noticeLine ∧ (g pr).settings = pr.settings) →
      ((s.onPort p g).port x).noticeLine = (s.port x).noticeLine ∧ ((s.onPort p g).port x).settings = (s.port x).settings := by
    intro g hg
    by_cases hx : x = p
    · rw [hx, port_onPort_same]
      exact hg _
    · rw [port_onPort_other _ hx]
      exact ⟨rfl, rfl⟩
  exact hport (fun pr => { pr with marker := _ }) fun _ => ⟨rfl, rfl⟩

theorem quiet_stopEntered (h : s.quiet) : (stopEntered s p f d o).quiet := by
  have hawaited : ∀ q, (stopEntered s p f d o).awaited q = s.awaited q := fun q => by
    simp [State.awaited, stopEntered, stopRequest, State.newRequest, Kind.writeClass]
  refine ⟨idle_of h.1 rfl ?_ fun e he => ⟨he, ?_⟩, h.2⟩
  · simp only [State.settled, hawaited]
    simp [stopEntered, stopRequest, State.newRequest]
  · simp only [State.queue, stopEntered_drive]
    simp [stopEntered, stopRequest]

theorem mem_stopEntered {q : Request} : q ∈ (stopEntered s p f d o).table ↔ q ∈ s.table ∨ q = stopRequest s p f d o := by
  simp [stopEntered]

/-- In a fresh state the entered STOP DRIVE is alone under its place of the arrival order (R50). -/
theorem entry_stopEntered (h : s.fresh) : (stopEntered s p f d o).entry (stopRequest s p f d o) := by
  refine ⟨mem_stopEntered.2 (.inr rfl), fun q hq hrid => ?_, by simp [stopRequest, State.newRequest]⟩
  rcases mem_stopEntered.1 hq with hold | hnew
  · exact absurd hrid (h.1 q hold)
  · exact hnew

/-- Requests that a fan-out meets plainly are met so with the STOP DRIVE entered behind them. -/
theorem fansPlainly_stopEntered (h : s.passes .stopDrive p f d o) (hm : (s.port p).marker = none) (hf : s.fresh)
    (hp : s.fansPlainly d) : (stopEntered s p f d o).fansPlainly d := by
  obtain ⟨⟨hlen, hrise, hbelow⟩, hlabel, hkind, hplain⟩ := hp
  have hroom : s.table.length < 32 := by
    have htakes : takesNoEntry .stopDrive o (s.predecessor? p .stopDrive) = false := by
      simp only [State.predecessor?, hm, takesNoEntry, ite_self]
      split <;> rfl
    obtain ⟨⟨-, -, -, hfull⟩, -⟩ := h
    have hfull := hfull rfl htakes
    simp only [State.tableIsFull, Bool.or_eq_false_iff, decide_eq_false_iff_not] at hfull
    exact Nat.lt_of_not_le hfull.2
  have hpred : ∀ x ∈ (stopEntered s p f d o).table, ∀ q : Request, (∀ y ∈ s.table, y.pred ≠ some q.rid) →
      x.pred ≠ some q.rid := by
    intro x hx q hq
    rcases mem_stopEntered.1 hx with hold | hnew
    · exact hq x hold
    · rw [hnew]
      exact nofun
  refine ⟨⟨?_, ?_, ?_⟩, hlabel, ?_, ?_⟩
  · simp [stopEntered, hroom]
  · rw [show (stopEntered s p f d o).table = s.table ++ [stopRequest s p f d o] from rfl, List.map_append, List.pairwise_append]
    refine ⟨hrise, by simp, fun a ha b hb => ?_⟩
    obtain ⟨q, hq, rfl⟩ := List.mem_map.1 ha
    rw [List.mem_singleton.1 hb]
    exact hbelow q hq
  · intro q hq
    rcases mem_stopEntered.1 hq with hold | hnew
    · exact Nat.lt_succ_of_lt (hbelow q hold)
    · rw [hnew]
      exact Nat.lt_succ_self _
  · intro q hq
    rcases mem_stopEntered.1 hq with hold | hnew
    · exact hkind q hold
    · rw [hnew]
      exact nofun
  · intro q hq hqd
    rcases mem_stopEntered.1 hq with hold | hnew
    · exact ⟨(hplain q hold hqd).1, fun x hx => hpred x hx q (hplain q hold hqd).2.1, (hplain q hold hqd).2.2⟩
    · rw [hnew]
      exact ⟨nofun, fun x hx => hpred x hx _ hf.2.1, nofun⟩

/-- What a reservation lost, or none to lose, leaves of a quiet state is quiet. -/
theorem quiet_loseReservation (h : s.quiet) : (s.loseReservation d).quiet := by
  cases hu : (s.drive d).unit.owner with
  | none => rwa [loseReservation_none hu]
  | some q =>
    obtain ⟨hframe, -⟩ := loseReservation_some hu
    generalize s.loseReservation d = t at *
    rw [hframe]
    exact quiet_onDrive (f := fun dr => { dr with
      unit := { dr.unit with owner := none, wanted := Vector.replicate 4 false } }) h rfl id Iff.rfl fun _ hm => hm

end

/-- Settles O26: without other requests the stop comes to the parked record and the reservation lost; with them it is the
fan-out that spares the STOP DRIVE alone. -/
theorem stopDriveStops : Obligations.StopDriveStops := by
  unfold Obligations.StopDriveStops
  intro p f d o s h hm r u v
  have hexec := exec_stopDrive h hm
  have hready := h.2.1
  have hv : v = (stopEntered s p f d o).onDrive d parked := rfl
  refine ⟨fun hq hf hunused => ⟨?_, ?_, fun q hq => ?_⟩, fun hf hp hu => ⟨_, hexec, ?_⟩⟩
  · obtain ⟨htable, howner, hlabel⟩ := hunused
    have hquiet : v.quiet := by
      rw [hv]
      exact quiet_onDrive (quiet_stopEntered hq) rfl (fun ha => by simp [DriveRec.armFree, parked] at ha)
        (by simp [parked, hready]) fun _ hm => by simp [mayStart, parked] at hm
    have hstop : (stopEntered s p f d o).stopDrive d (some s.nextOrder) = v.loseReservation d := by
      rw [hv]
      refine stopDrive_alone (fun q hq hqd => ?_) (fun q hq => ?_) howner hlabel
      · rcases mem_stopEntered.1 hq with hold | hnew
        · exact absurd hqd (htable q hold)
        · rw [hnew]
          rfl
      · rw [show s.nextOrder = (stopRequest s p f d o).rid from rfl, request?_entry (entry_stopEntered hf)] at hq
        rw [← Option.some.inj hq]
        rfl
    rw [hexec, hstop, close_quiet (quiet_loseReservation hquiet)]
  · intro hnone
    exact loseReservation_none (by rw [hv, drive_onDrive_same]; exact hnone)
  · have hdrive : v.drive d = parked (s.drive d) := by rw [hv, drive_onDrive_same, stopEntered_drive]
    have hlose := loseReservation_some (s := v) (d := d) (q := q) (by rw [hdrive]; exact hq)
    rw [hdrive] at hlose
    exact hlose
  · have hkeep : ∀ q ∈ (stopEntered s p f d o).table, q.drive = d → q.earlyEnded = false →
        (some s.nextOrder != some q.rid) = !(q.rid == r.rid) := fun q _ _ _ => by
      rw [bne, Option.some_beq_some, Bool.beq_comm]
      rfl
    have hearly : ∀ q ∈ (stopEntered s p f d o).table, q.drive = d → q.earlyEnded = true → (q.rid == r.rid) = false :=
      fun q hq _ he => by
        rcases mem_stopEntered.1 hq with hold | hnew
        · exact beq_false_of_ne (hf.1 q hold)
        · rw [hnew] at he
          cases he
    obtain ⟨hout, hdrive, hcut, hrest⟩ :=
      stopDrive_spec (fansPlainly_stopEntered h hm hf hp) hu hkeep hearly
    refine ⟨hout, hdrive, hcut, fun x => (hrest x).1, fun x => ⟨(hrest x).2.1, ?_⟩⟩
    have hline := stopEntered_line (s := s) (p := p) (f := f) (d := d) (o := o) x
    rw [(hrest x).2.2, hline.1, hline.2]
    rfl

end Sys2Proof.Proofs

/-! ### Movements and clearings that time out (R29, R40, R144) -/

namespace Sys2Proof.Proofs
open Sys2Proof Sys2Proof.Machine Sys2Proof.Laws

section
variable {s t : State} {d : Drive} {r q : Request} {e : Ending} {k : FaultKind} {c : Instr}

/-! #### A request that ends alone -/

/-- All that the ending of a plain request changes: its table entry, its arm, what it held, and the ports. -/
theorem conclude_frame (h : s.plain r) :
    let t := s.conclude r.rid e
    t = { s.onDrive r.drive fun dr => if dr.owner = some r.rid then dr.loseOwner else dr with
      ports := t.ports, table := s.table.filter (·.rid != r.rid)
      path0 := t.path0, path1 := t.path1, preference := t.preference, segments := t.segments
      buffer := { s.buffer with
        holder := if s.buffer.holder = some r.rid then none else s.buffer.holder
        waiters := s.buffer.waiters.filter (· != r.rid) } } := by
  have hreq := request?_entry h.1
  rw [conclude_plain h]
  obtain ⟨⟨hmem, -, hkind⟩, -, -, hfail, -⟩ := h
  unfold reported
  dsimp only
  split
  · obtain ⟨a, b, l, v, heq, -⟩ := leaveTable_eq (s := (s.onPort r.port _).withRequest { r with windowMatch := none })
      (r := { r with windowMatch := none }) (request?_withRequest ⟨r, hmem, rfl⟩ rfl) hkind hfail
    have htable := filter_map_rid (l := s.table) (r := { r with windowMatch := none })
    rw [heq, ← htable]
    rfl
  · obtain ⟨a, b, l, v, heq, -⟩ := leaveTable_eq (s := s.onPort r.port _) hreq hkind hfail
    rw [heq]
    rfl

/-- After the ending of a request that no SYNCHRONIZE awaits and that owns no arm, nothing follows where nothing followed. -/
theorem quiet_conclude (hq : s.quiet) (h : s.plain r) (he : r.earlyEffective = false)
    (ho : (s.drive r.drive).owner ≠ some r.rid) : (s.conclude r.rid e).quiet := by
  have hframe := conclude_frame (e := e) h
  rw [onDrive_id (by simp [ho])] at hframe
  generalize s.conclude r.rid e = t at *
  have htable : t.table = s.table.filter (·.rid != r.rid) := by rw [hframe]
  have hdrive : ∀ x, t.drive x = s.drive x := fun x => by rw [hframe]; rfl
  obtain ⟨⟨hwait, hsettled, hqueue⟩, hstart⟩ := hq
  obtain ⟨⟨-, hunique, -⟩, -⟩ := h
  refine ⟨⟨?_, settled_filter htable hsettled hunique he, fun x hx => ?_⟩, ?_⟩
  · rw [hframe]
    simp [hwait]
  · exact queue_filter htable (by rw [hdrive]) (hqueue x (hdrive x ▸ hx))
  · rw [hframe]
    exact hstart

/-! #### The expiry events -/

/-- The movement timer that expires, the fault it gives, and what a recalibrate made for it would go on to (R29, R144). -/
def Expires (s : State) (d : Drive) (c : Instr) (k : FaultKind) (after : AfterHome) : Prop :=
  c = .seekTimerExpiry d ∧ k = .seekTimeout ∧ after = .toTarget (s.drive d).tgtCyl ∧ (s.drive d).arm = .seeking
      ∧ (s.drive d).seekTimer ≠ none
    ∨ c = .recalibrateTimerExpiry d ∧ k = .recalTimeout ∧ after = (s.drive d).afterHome ∧ (s.drive d).arm = .recalibrating
      ∧ (s.drive d).recalTimer ≠ none

theorem Expires.not_spin {after : AfterHome} (h : Expires s d c k after) : k ≠ .spinTimeout := by
  rcases h with ⟨-, rfl, -⟩ | ⟨-, rfl, -⟩ <;> simp

theorem exec_recalibrateTimerExpiry (hp : s.powered = true) (ha : (s.drive d).arm = .recalibrating)
    (ht : (s.drive d).recalTimer ≠ none) : exec (.recalibrateTimerExpiry d) s = .next (s.close (s.recalibrateExpiry d)) := by
  show execRecalibrateTimerExpiry d s = _
  simp [execRecalibrateTimerExpiry, live_powered hp, ha, Option.isSome_iff_ne_none.2 ht]

theorem exec_seekTimerExpiry (hp : s.powered = true) (ha : (s.drive d).arm = .seeking)
    (ht : (s.drive d).seekTimer ≠ none) : exec (.seekTimerExpiry d) s = .next (s.close (s.seekExpiry d)) := by
  show execSeekTimerExpiry d s = _
  simp [execSeekTimerExpiry, live_powered hp, ha, Option.isSome_iff_ne_none.2 ht]

/-- A timed-out movement of the arm owner fails for it. -/
theorem exec_expiry_owned {after : AfterHome} (h : Expires s d c k after) (hp : s.powered = true)
    (hc : (s.drive d).clearing = false) {rid : Nat} (ho : (s.drive d).owner = some rid) :
    exec c s = .next (s.close (s.movementFails d rid k after)) := by
  rcases h with ⟨rfl, rfl, rfl, ha, ht⟩ | ⟨rfl, rfl, rfl, ha, ht⟩
  · rw [exec_seekTimerExpiry hp ha ht, State.seekExpiry, ho]
  · simp only [exec_recalibrateTimerExpiry hp ha ht, State.recalibrateExpiry, ho, hc, Bool.false_eq_true, if_false]

/-- A timed-out movement without owner, and without a cancel pending on it, faults the drive. -/
theorem exec_expiry_ownerless {after : AfterHome} (h : Expires s d c k after) (hp : s.powered = true)
    (hc : (s.drive d).clearing = false) (ho : (s.drive d).owner = none) (hx : s.cancelled d = []) :
    exec c s = .next (s.close (s.faultDrive d k none)) := by
  have hcancel : s.endCancelled d = s := by simp [State.endCancelled, hx]
  rcases h with ⟨rfl, rfl, rfl, ha, ht⟩ | ⟨rfl, rfl, rfl, ha, ht⟩
  · simp only [exec_seekTimerExpiry hp ha ht, State.seekExpiry, ho, hcancel]
  · simp only [exec_recalibrateTimerExpiry hp ha ht, State.recalibrateExpiry, ho, hc, Bool.false_eq_true, if_false, hcancel]

/-! #### The movement made again -/

/-- The paths and the preference list once a request has released what it holds (R96, R97). -/
def released (a b : PathState) (l : List Nat) (n : Nat) : PathState × PathState × List Nat :=
  let x := if a.holds n then (handed l, l.tail) else (a, l)
  let y := if b.holds n then (handed x.2, x.2.tail) else (b, x.2)
  (x.1, y.1, y.2)

theorem releasePath_eq_released (s : State) (n : Nat) :
    let x := released s.path0 s.path1 s.preference n
    s.releasePath n = { s with path0 := x.1, path1 := x.2.1, preference := x.2.2 } := by
  cases h0 : s.path0.holds n <;> cases h1 : s.path1.holds n <;>
    simp [State.releasePath, released, h0, h1, handOn0_eq, handOn1_eq]

/-- A change of the state apart from the paths is the same before and after a path's release. -/
theorem leavePaths_comm {F : State → State}
    (hF : ∀ (s : State) a b l, F { s with path0 := a, path1 := b, preference := l } =
      { F s with path0 := a, path1 := b, preference := l }) (s : State) (n : Nat) :
    (F s).leavePaths n = F (s.leavePaths n) := by
  have h : F s = { F s with path0 := s.path0, path1 := s.path1, preference := s.preference } := hF s _ _ _
  have h0 : (F s).path0 = s.path0 := by rw [h]
  have h1 : (F s).path1 = s.path1 := by rw [h]
  have h2 : (F s).preference = s.preference := by rw [h]
  rw [State.leavePaths, State.leavePaths, releasePath_eq_released, releasePath_eq_released, h0, h1, h2]
  exact (hF s _ _ _).symm

theorem leavePaths_onDrive (f : DriveRec → DriveRec) (n : Nat) :
    (s.onDrive d f).leavePaths n = (s.leavePaths n).onDrive d f :=
  leavePaths_comm (F := (·.onDrive d f)) (fun _ _ _ _ => rfl) s n

/-- An arm owner's drive record as its movement is made again through a recalibrate (R144). -/
def movedAgain (after : AfterHome) (dr : DriveRec) : DriveRec :=
  { dr with
    retryMark := true, tgtCyl := 0, arm := .recalibrating, recalTimer := some 500000, seekTimer := none
    afterHome := after }

theorem quiet_leavePaths (h : s.quiet) (n : Nat) : (s.leavePaths n).quiet := by
  obtain ⟨a, b, l, heq, -⟩ := leavePaths_eq s n
  rw [heq]
  exact h

/-- The first timeout of a movement: the mark on, and the movement made again through a recalibrate (R144). -/
theorem movementFails_again (hm : (s.drive d).retryMark = false) (h : s.entry r) (hop : r.op = none) (after : AfterHome) :
    s.movementFails d r.rid k after =
      ((s.leavePaths r.rid).withRequest { r with state := .recalibrating }).onDrive d (movedAgain after) := by
  obtain ⟨a, b, l, heq, -⟩ := leavePaths_eq s r.rid
  have hreq : ((s.leavePaths r.rid).onDrive d (movedAgain after)).request? r.rid = some r := by
    rw [heq]
    exact request?_entry (s := State.onDrive { s with path0 := a, path1 := b, preference := l } d (movedAgain after)) h
  simp only [State.movementFails, hm, Bool.false_eq_true, if_false, State.recalibrateFor, leavePaths_onDrive, onDrive_onDrive]
  have hput := onRequest_some hreq (·.inState .recalibrating)
  have hin : r.inState .recalibrating = { r with state := .recalibrating } := by simp [Request.inState, hop]
  rw [hin, putRequest_table (r := { r with state := .recalibrating }) h.2.2] at hput
  exact hput

/-- So, the request moving, nothing follows where nothing followed. -/
theorem quiet_movedAgain (hq : s.quiet) (h : s.entry r) (hs : r.state = .seeking ∨ r.state = .recalibrating)
    (after : AfterHome) :
    (((s.leavePaths r.rid).withRequest { r with state := .recalibrating }).onDrive d (movedAgain after)).quiet := by
  have hentry : (s.leavePaths r.rid).entry r := by
    obtain ⟨a, b, l, heq, -⟩ := leavePaths_eq s r.rid
    rw [heq]
    exact h
  have hmoving : ((s.leavePaths r.rid).withRequest { r with state := .recalibrating }).quiet :=
    quiet_withRequest (quiet_leavePaths hq _) hentry rfl rfl rfl rfl rfl (by rcases hs with h | h <;> simp [h]) nofun nofun
  exact quiet_onDrive hmoving rfl (fun ha => by simp [DriveRec.armFree, movedAgain] at ha) Iff.rfl fun _ hm => hm

/-! #### The drive's fault for its only request -/

theorem postAll_port (n : NoticeKind) (p : Port) : (s.postAll n d).port p = (s.port p).posted n (.drive d) .none := by
  rw [postAll_eq]
  simp [State.port]

theorem postAll_frame (n : NoticeKind) : s.postAll n d = { s with ports := (s.postAll n d).ports } := by
  rw [postAll_eq]

theorem quiet_postAll (h : s.quiet) (n : NoticeKind) : (s.postAll n d).quiet := by
  rw [postAll_eq]
  exact h

/-- The only request of a drive is the whole of its fan-out. -/
theorem fanOut_alone (hr : r ∈ s.table) (hrd : r.drive = d) (hw : r.state ≠ .waitingChain)
    (hone : ∀ q ∈ s.table, q.drive = d → q = r) (hrise : (s.table.map (·.rid)).Pairwise (· < ·)) : s.fanOut d = [r.rid] := by
  have hfilter : s.table.filter (fun q => decide (q.drive = d) && decide (q.state ≠ .waitingChain)) = [r] := by
    generalize hl : s.table.filter _ = l
    have hmem : ∀ q ∈ l, q = r := fun q hq => by
      rw [← hl, List.mem_filter, Bool.and_eq_true, decide_eq_true_eq] at hq
      exact hone q hq.1 hq.2.1
    have hnodup : l.Nodup := by
      rw [← hl]
      exact (List.Nodup.of_map _ (hrise.imp fun hlt => Nat.ne_of_lt hlt)).filter _
    have hin : r ∈ l := by
      rw [← hl]
      simp [hr, hrd, hw]
    have hrep := List.eq_replicate_of_mem hmem
    rw [hrep, List.nodup_replicate] at hnodup
    have hpos := List.length_pos_of_mem hin
    rw [hrep, show l.length = 1 by omega]
    rfl
  simp only [State.fanOut, hfilter, List.map_cons, List.map_nil]

/-- The fault of a drive for its only request ends that request and posts DRIVE_FAULTED (R38). -/
theorem faultDrive_alone (h : s.plain r) (hrd : r.drive = d) (hw : r.state ≠ .waitingChain) (hphase : r.phase = .idle)
    (ho : (s.drive d).owner = some r.rid) (hone : ∀ q ∈ s.table, q.drive = d → q = r)
    (hrise : (s.table.map (·.rid)).Pairwise (· < ·)) (hl : (s.drive d).labelUpdate = none) (hcan : r.cancelPending = false)
    (hsync : r.kind ≠ .synchronize) :
    s.faultDrive d k (some r) =
      ((s.onDrive d (faulted k (s.drive d).curCyl (s.drive d).tgtCyl (some (r.port, r.tag)))).conclude r.rid
        (Ending.make .ended .driveFault)).postAll .driveFaulted d := by
  have hreq := request?_entry h.1
  have hcut : s.cutLeg d = s := cutLeg_of_none (by simp [State.recording, State.owner?, ho, hreq, hphase])
  have hkind : r.kind ≠ .labelUpdate := h.1.2.2
  rw [faultDrive_eq, faultOwner_some hkind]
  simp only [fannedFrom, hcut]
  have hplain : (s.onDrive d (faulted k (s.drive d).curCyl (s.drive d).tgtCyl (some (r.port, r.tag)))).plain r := h
  have hfan := fanOut_alone
    (s := s.onDrive d (faulted k (s.drive d).curCyl (s.drive d).tgtCyl (some (r.port, r.tag)))) h.1.1 hrd hw hone hrise
  have hlabel : ((s.onDrive d (faulted k (s.drive d).curCyl (s.drive d).tgtCyl (some (r.port, r.tag)))).drive
      d).labelUpdate = none := by
    rw [drive_onDrive_same]
    exact hl
  generalize s.onDrive d (faulted k _ _ _) = u at *
  have hreq := request?_entry hplain.1
  have hframe := conclude_frame (e := Ending.make .ended .driveFault) hplain
  have hfold : u.foldEarly d = u := by
    simp only [foldEarly_eq, hfan, List.foldl_cons, List.foldl_nil, earlyStep, hreq, h.2.1, Bool.false_eq_true, if_false]
  have hends : faultEnds u r.rid = true := by simp [faultEnds, hreq, hsync]
  have hend : u.fanEnd r.rid (Ending.make .ended .driveFault) = u.conclude r.rid (Ending.make .ended .driveFault) := by
    obtain ⟨⟨-, -, hkind⟩, he, hd, -⟩ := h
    simp [State.fanEnd, State.conclude, hreq, hcan, hkind, he, hd, Ending.make]
  simp only [hfold, hfan, List.filter_cons, hends, if_true, List.filter_nil, List.foldl_cons, List.foldl_nil, hend]
  generalize u.conclude r.rid _ = t at *
  rw [dropLabelUpdate_none]
  have hdrive : t.drive d = (u.onDrive r.drive fun dr => if dr.owner = some r.rid then dr.loseOwner else dr).drive d := by
    rw [hframe]
    rfl
  rw [hdrive, hrd, drive_onDrive_same]
  split
  · exact hlabel
  · exact hlabel

/-- The record of a drive faulted at speed, every field written out (R38). -/
theorem onDrive_faulted (hk : k ≠ .spinTimeout) (o : Option (Port × Nat)) :
    s.onDrive d (faulted k (s.drive d).curCyl (s.drive d).tgtCyl o) = s.onDrive d fun dr =>
      { dr with
        state := .faulted, arm := .idle, owner := none, spinTimer := none, seekTimer := none, recalTimer := none
        retryMark := false, clearing := false, load := LoadRec.initial
        fault := some { kind := k, curCyl := dr.curCyl, tgtCyl := dr.tgtCyl, owner := o, collected := false } } := by
  apply onDrive_congr
  simp only [faulted, hk, if_false]
  rfl

theorem quiet_faulted (hq : s.quiet) (hready : (s.drive d).state = .ready) (cur tgt : Nat) (o : Option (Port × Nat)) :
    (s.onDrive d (faulted k cur tgt o)).quiet :=
  quiet_onDrive hq rfl (fun ha => by simp [DriveRec.armFree, faulted] at ha) (by simp [faulted, hready])
    fun _ hm => by simp [mayStart, faulted] at hm

/-- After the fault of a drive for its only request nothing follows where nothing followed. -/
theorem quiet_faulted_alone (hq : s.quiet) (hready : (s.drive d).state = .ready) (h : s.plain r) (hrd : r.drive = d)
    (he : r.earlyEffective = false) (cur tgt : Nat) (o : Option (Port × Nat)) :
    (((s.onDrive d (faulted k cur tgt o)).conclude r.rid e).postAll .driveFaulted d).quiet := by
  refine quiet_postAll (quiet_conclude (quiet_faulted hq hready cur tgt o) h he ?_) _
  rw [hrd, drive_onDrive_same]
  exact nofun

/-- A clearing that fails (R40): its requests ended, the new record made, DRIVE_FAULTED posted. -/
theorem clearingFails_spec (h : s.clearsPlainly d) :
    let t := s.clearingFails d
    s.clearedOut t d (s.clearers d) (Ending.make .ended .driveFault)
      ∧ t.drive d = { s.drive d with
          recalTimer := none, arm := .idle, clearing := false
          fault := some { kind := .recalTimeout, curCyl := (s.drive d).curCyl, tgtCyl := 0, owner := none
                          collected := false } }
      ∧ ∀ p : Port, (t.port p).notices = postInto (s.port p).notices .driveFaulted (.drive d) .none
          ∧ (t.port p).noticeLine = (s.port p).settings.noticeLineEnable := by
  obtain ⟨hframe, hport⟩ := clearers_end h (e := Ending.make .ended .driveFault) (by simp [Ending.make])
    (f := fun dr => { dr with
      recalTimer := none, arm := .idle, clearing := false
      fault := some { kind := .recalTimeout, curCyl := dr.curCyl, tgtCyl := 0, owner := none, collected := false } })
    fun _ => ⟨rfl, rfl, rfl⟩
  unfold State.clearingFails
  dsimp only
  generalize List.foldl _ _ (s.clearers d) = t at *
  have hdrives : ∀ x, (t.postAll .driveFaulted d).drive x = (s.onDrive d fun dr => { dr with
      recalTimer := none, arm := .idle, clearing := false
      fault := some { kind := .recalTimeout, curCyl := dr.curCyl, tgtCyl := 0, owner := none, collected := false } }).drive
      x := fun x => by
    rw [postAll_eq, hframe]
    rfl
  refine ⟨clearedOut_of ?_ ?_ (fun x hx => ?_) fun p => ?_, ?_, fun p => ?_⟩
  · rw [postAll_eq, hframe]
    rfl
  · rw [postAll_eq, hframe]
  · rw [hdrives, drive_onDrive_other _ hx]
  · rw [postAll_port, hport]
    rfl
  · rw [hdrives, drive_onDrive_same]
  · rw [postAll_port, hport]
    exact ⟨rfl, rfl⟩

/-- A timed-out movement, written without what a recalibrate would go on to. -/
theorem expires_of (h : c = .seekTimerExpiry d ∧ k = .seekTimeout ∧ (s.drive d).arm = .seeking ∧ (s.drive d).seekTimer ≠ none
    ∨ c = .recalibrateTimerExpiry d ∧ k = .recalTimeout ∧ (s.drive d).arm = .recalibrating ∧ (s.drive d).recalTimer ≠ none) :
    ∃ after, Expires s d c k after := by
  rcases h with ⟨h1, h2, h3⟩ | ⟨h1, h2, h3⟩
  · exact ⟨_, .inl ⟨h1, h2, rfl, h3⟩⟩
  · exact ⟨_, .inr ⟨h1, h2, rfl, h3⟩⟩

end

/-- Settles O50: an owner's movement is made again or faults the drive by its mark; a clearing fails for its requests alone. -/
theorem movementTimesOut : Obligations.MovementTimesOut := by
  unfold Obligations.MovementTimesOut
  refine ⟨fun d r s hp hready hq hc ho hplain hrd hop hphase c k st after hexp hst => ?_,
    fun d s hp hc ha ht hclear => ⟨_, ?_, clearingFails_spec hclear⟩, fun d s c k hp hc hfans hexp => ?_⟩
  · have hmoving : r.state = .seeking ∨ r.state = .recalibrating := by
      rcases hexp with ⟨-, -, rfl, -⟩ | ⟨-, -, rfl, -⟩
      · exact .inl hst
      · exact .inr hst
    have hexp' : Expires s d c k after := by
      rcases hexp with ⟨h1, h2, -, h3⟩ | ⟨h1, h2, -, h3⟩
      · exact .inl ⟨h1, h2, h3⟩
      · exact .inr ⟨h1, h2, h3⟩
    have hexec := exec_expiry_owned hexp' hp hc ho
    refine ⟨fun hmark => ?_, fun hmark hone hrise hl hcan hsync hee => ?_⟩
    · rw [hexec, movementFails_again hmark hplain.1 hop, close_quiet (quiet_movedAgain hq hplain.1 hmoving after)]
      rfl
    · have halone := faultDrive_alone (k := k) hplain hrd (by rcases hmoving with h | h <;> simp [h]) hphase ho hone hrise hl
        hcan hsync
      have hfails : s.movementFails d r.rid k after = s.faultDrive d k (some r) := by
        simp [State.movementFails, hmark, request?_entry hplain.1]
      have hquiet := quiet_faulted_alone (k := k) (e := Ending.make .ended .driveFault) hq hready hplain hrd hee
        (s.drive d).curCyl (s.drive d).tgtCyl (some (r.port, r.tag))
      rw [hfails, halone, close_quiet hquiet, onDrive_faulted hexp'.not_spin] at hexec
      exact ⟨_, hexec, postAll_frame _, fun q => postAll_port _ q⟩
  · simp only [exec_recalibrateTimerExpiry hp ha ht, State.recalibrateExpiry, hc, if_true]
  · obtain ⟨after, hexp⟩ := expires_of hexp
    refine ⟨fun r ho hentry hmark => ⟨_, exec_expiry_owned hexp hp hc ho, ?_⟩,
      fun ho hcancel => ⟨_, exec_expiry_ownerless hexp hp hc ho hcancel, faultDrive_spec hfans hexp.not_spin none⟩⟩
    simp only [State.movementFails, hmark, if_true, request?_entry hentry]
    rw [← faultOwner_some hentry.2.2]
    exact faultDrive_spec hfans hexp.not_spin (some r)

end Sys2Proof.Proofs

/-! ### The string reset (R43, R71, R162, R176, R185) -/

namespace Sys2Proof.Proofs
open Sys2Proof Sys2Proof.Machine Sys2Proof.Laws

section
variable {s : State} {p : Port} {d : Drive} {r : AttnReason}

/-! #### Operations made for every drive and for every port -/

theorem foldl_onDrive (f : Drive → DriveRec → DriveRec) {ds : List Drive} (hn : ds.Nodup) (s : State) :
    let t := ds.foldl (fun s d => s.onDrive d (f d)) s
    t = { s with drives := t.drives } ∧ (∀ d ∈ ds, t.drive d = f d (s.drive d)) ∧ ∀ d, d ∉ ds → t.drive d = s.drive d := by
  induction ds generalizing s with
  | nil => exact ⟨rfl, nofun, fun _ _ => rfl⟩
  | cons a ds ih =>
    obtain ⟨ha, hn⟩ := List.nodup_cons.1 hn
    obtain ⟨ht, hin, hout⟩ := ih hn (s.onDrive a (f a))
    simp only [List.foldl_cons]
    refine ⟨?_, fun d hd => ?_, fun d hd => ?_⟩
    · rw [ht]
      rfl
    · by_cases hda : d = a
      · subst hda
        rw [hout d ha, drive_onDrive_same]
      · rw [hin d ((List.mem_cons.1 hd).resolve_left hda), drive_onDrive_other _ hda]
    · obtain ⟨hda, hds⟩ := not_or.1 (mt List.mem_cons.2 hd)
      rw [hout d hds, drive_onDrive_other _ hda]

/-- A change of every drive's record. -/
theorem forDrives_onDrive (f : Drive → DriveRec → DriveRec) (s : State) :
    let t := forDrives (fun s d => s.onDrive d (f d)) s
    t = { s with drives := t.drives } ∧ ∀ d, t.drive d = f d (s.drive d) := by
  obtain ⟨ht, hin, -⟩ := foldl_onDrive f nodup_allDrives s
  exact ⟨ht, fun d => hin d (mem_allDrives d)⟩

/-- A change of every port's record. -/
theorem forPorts_onPort (f : PortRec → PortRec) (s : State) :
    let t := forPorts (fun s p => s.onPort p f) s
    t = { s with ports := t.ports } ∧ ∀ p, t.port p = f (s.port p) := by
  refine ⟨rfl, fun p => ?_⟩
  simp only [forPorts, allPorts, List.foldl]
  cases p <;> simp [port_onPort_other]

/-! #### Attention set on every drive (R160) -/

/-- A drive's record with attention set for a port, where the drive is present. -/
def attended (p : Port) (r : AttnReason) (dr : DriveRec) : DriveRec :=
  if dr.state = .absent then dr else { dr with unit := { dr.unit with attention := setOfPort dr.unit.attention p (some r) } }

/-- Attention set for a port on a drive, where it is present, with its notice. -/
def attend (p : Port) (r : AttnReason) (s : State) (d : Drive) : State :=
  if (s.drive d).state = .absent then s else s.setAttention d p r

/-- The notice of an attention. -/
def attnNotice (r : AttnReason) (d : Drive) : Notice :=
  { kind := .attention, subject := .drive d, occurrences := 1, details := .reason r }

/-- The present drives of a list. -/
def presentOf (s : State) (ds : List Drive) : List Drive := ds.filter fun d => decide ((s.drive d).state ≠ .absent)

@[simp] theorem attended_state (dr : DriveRec) : (attended p r dr).state = dr.state := by
  unfold attended
  split <;> rfl

theorem postInto_new {ns : List Notice} {k : NoticeKind} {sub : Subject} {det : NoticeDetails}
    (h : ∀ n ∈ ns, n.subject ≠ sub) :
    postInto ns k sub det = ns ++ [{ kind := k, subject := sub, occurrences := 1, details := det }] := by
  unfold postInto
  rw [if_neg]
  simp only [List.any_eq_true, decide_eq_true_eq, not_exists, not_and]
  exact fun n hn _ => h n hn

/-- One drive attended: its record, and a new notice at the end of the port's list. -/
theorem attend_spec (hline : (s.port p).withLine = s.port p) (hnew : ∀ n ∈ (s.port p).notices, n.subject ≠ .drive d) :
    let t := attend p r s d
    t = { s with drives := t.drives, ports := t.ports }
      ∧ t.drive d = attended p r (s.drive d) ∧ (∀ x, x ≠ d → t.drive x = s.drive x) ∧ (∀ q, q ≠ p → t.port q = s.port q)
      ∧ t.port p = PortRec.withLine { s.port p with
          notices := (s.port p).notices ++ (presentOf s [d]).map (attnNotice r) } := by
  unfold attend
  by_cases habs : (s.drive d).state = .absent
  · simp only [habs, if_true]
    exact ⟨trivial, by simp [attended, habs], fun _ _ => trivial, fun _ _ => trivial,
      by simpa [presentOf, habs] using hline.symm⟩
  · simp only [habs, if_false, State.setAttention, State.post]
    refine ⟨rfl, ?_, fun x hx => ?_, fun q hq => ?_, ?_⟩
    · rw [onPort_drive, drive_onDrive_same, attended, if_neg habs]
    · rw [onPort_drive, drive_onDrive_other _ hx]
    · rw [port_onPort_other _ hq, onDrive_port]
    · rw [port_onPort_same, onDrive_port, postInto_new hnew]
      simp [presentOf, habs, attnNotice]

/-- A list of drives attended: the notices join the port's list in the order of the drives. -/
theorem foldl_attend {ds : List Drive} (hn : ds.Nodup) (hline : (s.port p).withLine = s.port p)
    (hnew : ∀ d ∈ ds, ∀ n ∈ (s.port p).notices, n.subject ≠ .drive d) :
    let t := ds.foldl (attend p r) s
    t = { s with drives := t.drives, ports := t.ports } ∧ (∀ d ∈ ds, t.drive d = attended p r (s.drive d))
      ∧ (∀ d, d ∉ ds → t.drive d = s.drive d) ∧ (∀ q, q ≠ p → t.port q = s.port q)
      ∧ t.port p = PortRec.withLine { s.port p with
          notices := (s.port p).notices ++ (presentOf s ds).map (attnNotice r) } := by
  induction ds generalizing s with
  | nil => exact ⟨rfl, nofun, fun _ _ => rfl, fun _ _ => rfl, by simpa [presentOf] using hline.symm⟩
  | cons a ds ih =>
    obtain ⟨ha, hn⟩ := List.nodup_cons.1 hn
    obtain ⟨hframe, hdrive, hothers, hports, hport⟩ := attend_spec (r := r) hline (hnew a (by simp))
    rw [List.foldl_cons]
    generalize attend p r s a = v at *
    have hne : ∀ d ∈ ds, d ≠ a := fun d hd hda => ha (hda ▸ hd)
    have hpresent : presentOf v ds = presentOf s ds := List.filter_congr fun d hd => by rw [hothers d (hne d hd)]
    have hlist : presentOf s (a :: ds) = presentOf s [a] ++ presentOf s ds :=
      List.filter_append [a] ds
    obtain ⟨hframe', hdrive', hothers', hports', hport'⟩ := ih (s := v) hn (by rw [hport]; rfl) fun d hd n hnin => by
      rw [hport] at hnin
      rcases List.mem_append.1 hnin with hold | hnew'
      · exact hnew d (by simp [hd]) n hold
      · obtain ⟨x, hx, rfl⟩ := List.mem_map.1 hnew'
        have hxa : x = a := List.mem_singleton.1 (List.mem_of_mem_filter hx)
        simpa [attnNotice, hxa] using (hne d hd).symm
    generalize List.foldl (attend p r) v ds = t at *
    refine ⟨?_, fun d hd => ?_, fun d hd => ?_, fun q hq => (hports' q hq).trans (hports q hq), ?_⟩
    · rw [hframe', hframe]
    · rcases List.mem_cons.1 hd with rfl | hd
      · rw [hothers' d ha, hdrive]
      · rw [hdrive' d hd, hothers d (hne d hd)]
    · obtain ⟨hda, hds⟩ := not_or.1 (mt List.mem_cons.2 hd)
      rw [hothers' d hds, hothers d hda]
    · rw [hport', hport, hpresent, hlist, List.map_append, ← List.append_assoc]
      rfl

/-- A list of ports told of every present drive, their notice lists empty before. -/
theorem foldl_attentionAll {ps : List Port} (hn : ps.Nodup) (hline : ∀ p ∈ ps, (s.port p).withLine = s.port p)
    (hempty : ∀ p ∈ ps, (s.port p).notices = []) :
    let t := ps.foldl (fun s p => s.attentionAll p r) s
    t = { s with drives := t.drives, ports := t.ports }
      ∧ (∀ d, t.drive d = ps.foldl (fun dr p => attended p r dr) (s.drive d)) ∧ (∀ p, p ∉ ps → t.port p = s.port p)
      ∧ ∀ p ∈ ps, t.port p = PortRec.withLine { s.port p with notices := (presentOf s allDrives).map (attnNotice r) } := by
  induction ps generalizing s with
  | nil => exact ⟨rfl, fun _ => rfl, fun _ _ => rfl, nofun⟩
  | cons a ps ih =>
    obtain ⟨ha, hn⟩ := List.nodup_cons.1 hn
    obtain ⟨hframe, hdrive, -, hports, hport⟩ := foldl_attend (s := s) (p := a) (r := r) nodup_allDrives (hline a (by simp))
      (by simp [hempty a])
    have hall : s.attentionAll a r = allDrives.foldl (attend a r) s := rfl
    simp only [List.foldl_cons, hall]
    generalize allDrives.foldl (attend a r) s = v at *
    have hne : ∀ p ∈ ps, p ≠ a := fun p hp hpa => ha (hpa ▸ hp)
    have hpresent : presentOf v allDrives = presentOf s allDrives :=
      List.filter_congr fun d _ => by rw [hdrive d (mem_allDrives d), attended_state]
    obtain ⟨hframe', hdrive', hothers', hports'⟩ := ih (s := v) hn
      (fun p hp => by rw [hports p (hne p hp)]; exact hline p (by simp [hp]))
      fun p hp => by rw [hports p (hne p hp)]; exact hempty p (by simp [hp])
    generalize List.foldl _ v ps = t at *
    refine ⟨?_, fun d => ?_, fun p hp => ?_, fun p hp => ?_⟩
    · rw [hframe', hframe]
    · rw [hdrive', hdrive d (mem_allDrives d)]
    · obtain ⟨hpa, hps⟩ := not_or.1 (mt List.mem_cons.2 hp)
      rw [hothers' p hps, hports p hpa]
    · by_cases hpa : p = a
      · subst hpa
        rw [hothers' p ha, hport, hempty p (by simp), List.nil_append]
      · rw [hports' p ((List.mem_cons.1 hp).resolve_left hpa), hports p hpa, hpresent]

theorem setOfPort_all {α : Type} (v : Vector α 4) (x : α) :
    setOfPort (setOfPort (setOfPort (setOfPort v .A x) .B x) .C x) .D x = Vector.replicate 4 x := by
  apply Vector.ext
  intro i hi
  match i, hi with
  | 0, _ | 1, _ | 2, _ | 3, _ => simp [setOfPort, portIndex]

/-- Attention set for all four ports. -/
theorem foldl_attended (dr : DriveRec) : allPorts.foldl (fun dr p => attended p r dr) dr =
    if dr.state = .absent then dr else { dr with unit := { dr.unit with attention := Vector.replicate 4 (some r) } } := by
  by_cases h : dr.state = .absent
  · simp [allPorts, attended, h]
  · simp [allPorts, attended, h, setOfPort_all]

/-! #### What a string reset leaves -/

/-- What the reset makes of a drive's record, whose pack the cut has left as `pk` (R43, R71, R162). -/
def afterReset (x : SpindleSense) (dr : DriveRec) : DriveRec :=
  allPorts.foldl (fun dr p => attended p .stringReset dr) (dr.stringReset x).cleared

/-- The first half of a string reset: every leg cut, the director's part, and the sequencers. -/
def resetDrives (s : State) (cables : Vector SpindleSense 8) : State :=
  forDrives (fun s d => s.onDrive d fun dr => (dr.stringReset cables[d]).cleared) (forDrives State.cutLeg s).discardAll

/-- Then the start list and the ports' outbound sides. -/
def resetLists (s : State) : State :=
  forPorts (fun s p => s.onPort p fun pr => PortRec.withLine { pr.silenced with notices := [] })
    { s with startList := s.startList.filter fun d => decide ((s.drive d).state ≠ .absent) }

theorem stringReset_eq (s : State) (cables : Vector SpindleSense 8) : s.stringReset cables =
    allPorts.foldl (fun s p => s.attentionAll p .stringReset) (resetLists (resetDrives s cables)) := rfl

theorem resetDrives_spec (s : State) (cables : Vector SpindleSense 8) :
    let t := resetDrives s cables
    t = { s.discardAll with drives := t.drives, freeCount := t.freeCount }
      ∧ ∀ d, ∃ pk, s.packCut d pk ∧ t.drive d = (({ s.drive d with pack := pk } : DriveRec).stringReset cables[d]).cleared := by
  obtain ⟨hcut, hpacks⟩ := forDrives_cutLeg_spec s
  unfold resetDrives
  generalize forDrives State.cutLeg s = u at *
  obtain ⟨hmade, hrecords⟩ := forDrives_onDrive (fun d dr => (dr.stringReset cables[d]).cleared) u.discardAll
  dsimp only
  generalize forDrives _ u.discardAll = t at *
  refine ⟨?_, fun d => ⟨_, (hpacks d).2, ?_⟩⟩
  · rw [hmade, hcut]
    rfl
  · rw [hrecords, ← (hpacks d).1]
    rfl

theorem resetLists_spec (s : State) :
    let t := resetLists s
    t = { s with ports := t.ports, startList := s.startList.filter fun d => decide ((s.drive d).state ≠ .absent) }
      ∧ ∀ p, t.port p = PortRec.withLine { (s.port p).silenced with notices := [] } :=
  forPorts_onPort (fun pr => PortRec.withLine { pr.silenced with notices := [] })
    { s with startList := s.startList.filter fun d => decide ((s.drive d).state ≠ .absent) }

theorem stringReset_spec (s : State) (cables : Vector SpindleSense 8) :
    let t := s.stringReset cables
    t = { s with
        drives := t.drives, ports := t.ports, freeCount := t.freeCount, table := [], path0 := .free, path1 := .free
        preference := [], segments := Vector.replicate 8 none, buffer := SpareBuffer.initial
        windows := Vector.replicate 4 none
        startList := s.startList.filter fun d => decide ((t.drive d).state ≠ .absent) }
    ∧ (∀ p, t.port p = PortRec.withLine { (s.port p).silenced with
        notices := (presentOf t allDrives).map (attnNotice .stringReset) })
    ∧ ∀ d, ∃ pk, s.packCut d pk ∧ t.drive d = afterReset cables[d] { s.drive d with pack := pk } := by
  obtain ⟨hmade, hrecords⟩ := resetDrives_spec s cables
  rw [stringReset_eq]
  generalize resetDrives s cables = v at *
  obtain ⟨hsilent, hlists⟩ := resetLists_spec v
  generalize resetLists v = w at *
  obtain ⟨htold, hattended, -, hnotices⟩ := foldl_attentionAll (s := w) (r := .stringReset) (ps := allPorts) (by decide)
    (fun p _ => by rw [hlists]; rfl) fun p _ => by rw [hlists]; rfl
  generalize allPorts.foldl _ w = t at *
  dsimp only
  have hdrive : ∀ d, w.drive d = v.drive d := fun d => by rw [hsilent]; rfl
  have hstate : ∀ d, (t.drive d).state = (v.drive d).state := fun d => by
    rw [hattended, hdrive, foldl_attended]
    split <;> rfl
  have hpresent : presentOf t allDrives = presentOf w allDrives :=
    List.filter_congr fun d _ => by rw [hstate, hdrive]
  refine ⟨?_, fun p => ?_, fun d => ?_⟩
  · simp only [hstate]
    rw [htold, hsilent, hmade]
    rfl
  · have hport : v.port p = s.port p := by rw [hmade]; rfl
    rw [hnotices p (by cases p <;> decide), hpresent, hlists, hport]
    rfl
  · obtain ⟨pk, hpk, hd⟩ := hrecords d
    refine ⟨pk, hpk, ?_⟩
    rw [hattended, hdrive, hd]
    rfl

theorem afterReset_eq (x : SpindleSense) (dr : DriveRec) : afterReset x dr =
    let dr := { dr with labelUpdate := none, deferred := Vector.replicate 4 none }
    let noted := { UnitRec.initial with attention := Vector.replicate 4 (some .stringReset) }
    let gone := { dr with
      state := .absent, serial := none, map := MapRec.initial, suspects := [], unit := UnitRec.initial }
    match dr.state with
    | .absent =>
      if x.present = true then
        let found := match x.pack with
          | .same => dr.pack
          | .none => none
          | .seated q => some q
        { dr with
          state := .stopped, motor := .off, arm := .idle, packSeated := found.isSome, pack := found
          doorClosed := x.doorClosed, writeProtect := x.writeProtect
          writeFault := x.writeFault, startStrap := x.startStrap, unit := noted }
      else gone
    | .stopped => if x.present = true then { dr with unit := noted } else gone
    | .loading | .ready =>
      { dr.still with
        state := .loading, arm := .recalibrating, tgtCyl := 0, recalTimer := some 500000, unit := noted
        load := { LoadRec.initial with step := .recalibrate } }
    | .faulted =>
      if dr.clearing = true then { dr with arm := .idle, recalTimer := none, clearing := false, unit := noted }
      else { dr with unit := noted }
    | .starting | .stopping => { dr with unit := noted } := by
  rw [afterReset, foldl_attended]
  unfold DriveRec.cleared DriveRec.stringReset
  cases hs : dr.state with
  | absent =>
    cases hx : x.present with
    | false => simp [DriveRec.foundAbsent, DriveRec.discardMap, UnitRec.initial]
    | true => cases hk : x.pack <;> simp [DriveRec.sensed, hk, UnitRec.initial]
  | stopped => cases hx : x.present <;> simp [hs, DriveRec.foundAbsent, DriveRec.discardMap, UnitRec.initial]
  | faulted => cases hc : dr.clearing <;> simp [hs, hc, UnitRec.initial]
  | loading | ready => rfl
  | starting | stopping => simp [hs, UnitRec.initial]

/-- After the reset nothing waits for an arm, the buffer or a settlement. -/
theorem stringReset_idle (s : State) (cables : Vector SpindleSense 8) : (s.stringReset cables).idle := by
  obtain ⟨hframe, -, hdrive⟩ := stringReset_spec s cables
  generalize s.stringReset cables = t at *
  have htable : t.table = [] := by rw [hframe]
  refine ⟨by rw [hframe]; rfl, by simp [State.settled, htable], fun d _ => ?_⟩
  obtain ⟨pk, -, hd⟩ := hdrive d
  have hlabel : (t.drive d).labelUpdate = none := by
    rw [hd, afterReset, foldl_attended]
    split <;> rfl
  simp [State.queue, htable, hlabel]

end

/-- Settles O11: the reset, phase by phase, and the record it makes of each drive. -/
theorem stringResetLeaves : Obligations.StringResetLeaves := by
  unfold Obligations.StringResetLeaves
  intro s p f cables o h
  have hexec : exec (.stringReset p f cables) s = .next (State.acceptStringReset p f cables s 0 o) := by
    show s.live _ = _
    rw [live_powered h.1.1, arrival_admits h rfl rfl]
  have hidle := stringReset_idle s cables
  obtain ⟨hframe, hport, hdrive⟩ := stringReset_spec s cables
  refine ⟨s.stringReset cables, hexec, ?_⟩
  generalize s.stringReset cables = t at *
  have hnotices : ∀ q, (t.port q).notices = (presentOf t allDrives).map (attnNotice .stringReset) := fun q => by
    rw [hport]
    rfl
  refine ⟨hframe, fun hs => settle_quiet ⟨hidle, hs⟩, fun d hd => settle_start hidle hd, fun q => ?_, hnotices, fun d => ?_⟩
  · rw [hnotices, hport]
    rfl
  · obtain ⟨pk, hpk, hd⟩ := hdrive d
    exact ⟨pk, hpk, hd.trans (afterReset_eq _ _)⟩

end Sys2Proof.Proofs

/-! ### The label as recorded and read back (R15, R16) -/

namespace Sys2Proof.Proofs
open Sys2Proof Sys2Proof.Machine Sys2Proof.Laws

/-! #### Numbers in octets -/

@[simp] theorem length_octetsOf (n v : Nat) : (octetsOf n v).length = n := by
  induction n with
  | zero => rfl
  | succ n ih => simp [octetsOf, ih]

theorem foldl_octetsOf (n v a : Nat) :
    (octetsOf n v).foldl (fun v o => v * 256 + o.toNat) a = a * 256 ^ n + v % 256 ^ n := by
  induction n generalizing a with
  | zero => simp [octetsOf, Nat.mod_one]
  | succ n ih =>
    rw [Nat.mod_pow_succ]
    simp only [octetsOf, List.foldl_cons, ih, BitVec.toNat_ofNat]
    ring

/-- A number that fits its octets is given back by them. -/
theorem numberOf_octetsOf {n v : Nat} (h : v < 256 ^ n) : numberOf (octetsOf n v) = v := by
  simp [numberOf, foldl_octetsOf, Nat.mod_eq_of_lt h]

theorem numberOf_checkOctets (c : Word16) : numberOf (checkOctets c) = c.toNat := by
  have h := c.isLt
  simp only [numberOf, checkOctets, List.foldl_cons, List.foldl_nil, BitVec.toNat_setWidth, BitVec.toNat_ushiftRight,
    Nat.shiftRight_eq_div_pow]
  omega

theorem octet_toNat {v : Nat} (h : v < 256) : (octetAt (octetsOf 1 v) 0).toNat = v := by
  simp [octetAt, octetsOf, Nat.mod_eq_of_lt h]

/-! #### Entries -/

/-- The fields of an entry fit their octets. -/
def Fits : MapEntry → Prop
  | .assign h k _ => h < 8960 ∧ k < 128
  | .retire k => k < 128

@[simp] theorem length_entryOctets (e : MapEntry) : (entryOctets e).length = 6 := by
  cases e <;> simp [entryOctets]

/-- An entry as recorded reads back. -/
theorem parseEntry_entryOctets {e : MapEntry} (h : Fits e) : parseEntry (entryOctets e) = some e := by
  cases e with
  | assign t k o =>
    obtain ⟨ht, hk⟩ := h
    have hcyl : cylOf t ≤ 559 := by unfold cylOf; omega
    have hhead : headOf t ≤ 15 := by unfold headOf; omega
    have htrack : trackOf (cylOf t) (headOf t) = t := by unfold trackOf cylOf headOf; omega
    have hk' : k ≤ 127 := by omega
    have horigin : originCode o < 256 := by cases o <;> decide
    have hfields : numberOf ((entryOctets (.assign t k o)).take 2) = cylOf t
        ∧ (octetAt (entryOctets (.assign t k o)) 2).toNat = headOf t
        ∧ (octetAt (entryOctets (.assign t k o)) 3).toNat = k
        ∧ (octetAt (entryOctets (.assign t k o)) 4).toNat = originCode o :=
      ⟨numberOf_octetsOf (n := 2) (by omega), octet_toNat (by omega), octet_toNat (by omega), octet_toNat horigin⟩
    obtain ⟨hc, hh, hkf, ho⟩ := hfields
    simp only [parseEntry, hc, hh, hkf, ho, hcyl, hhead, hk', and_self, if_true, htrack]
    cases o <;> rfl
  | retire k =>
    have hk : k ≤ 127 := Nat.le_of_lt_succ h
    have hkf : (octetAt (entryOctets (.retire k)) 3).toNat = k := octet_toNat (by omega)
    have hc : numberOf ((entryOctets (.retire k)).take 2) = 65535 := by
      show numberOf [0xFF, 0xFF] = 65535
      decide
    have hh : (octetAt (entryOctets (.retire k)) 2).toNat = 255 := rfl
    have ho : (octetAt (entryOctets (.retire k)) 4).toNat = 16 := rfl
    simp only [parseEntry, hc, hh, hkf, ho, hk, and_self, if_true]

theorem drop_flatMap {α β : Type} {f : α → List β} {c : Nat} (hf : ∀ a, (f a).length = c) (l : List α) (j : Nat) :
    (l.flatMap f).drop (c * j) = (l.drop j).flatMap f := by
  induction l generalizing j with
  | nil => simp
  | cons a l ih =>
    cases j with
    | zero => simp
    | succ j => 
      rw [List.flatMap_cons, Nat.mul_succ, Nat.add_comm, ← List.drop_drop, ← hf a, List.drop_left, hf a, ih, List.drop_succ_cons]

/-- The octets at the place of an entry in a filled-up block are the entry's. -/
theorem take_drop_padBlock {es : List MapEntry} {j : Nat} (h : j < es.length) :
    ((padBlock (es.flatMap entryOctets)).drop (6 * j)).take 6 = entryOctets es[j] := by
  have hlen : (es.flatMap entryOctets).length = 6 * es.length := by
    simp [List.length_flatMap, Nat.mul_comm]
  have hdrop : (es.flatMap entryOctets).drop (6 * j) = entryOctets es[j] ++ (es.drop (j + 1)).flatMap entryOctets := by
    rw [drop_flatMap length_entryOctets, List.drop_eq_getElem_cons h, List.flatMap_cons]
  rw [padBlock, List.drop_append_of_le_length (by omega), hdrop, List.append_assoc]
  exact List.take_left' (length_entryOctets _)

/-- Entry `j` of an image's label sectors is its entry `j`. -/
theorem entryAt_labelBlocks {m : LabelImage} {j : Nat} (h : j < m.entries.length) :
    entryAt (labelBlocks m).2.1 (labelBlocks m).2.2 j = entryOctets m.entries[j] := by
  unfold entryAt
  split
  · next hj => exact (take_drop_padBlock (by simp; omega)).trans (by simp)
  · next hj => exact (take_drop_padBlock (by simp; omega)).trans (by simp; congr 1; congr 1; omega)

theorem parseEntries_labelBlocks {m : LabelImage} (h : ∀ e ∈ m.entries, Fits e) {n : Nat} (hn : n ≤ m.entries.length) :
    parseEntries (labelBlocks m).2.1 (labelBlocks m).2.2 n = some (m.entries.take n) := by
  induction n with
  | zero => simp [parseEntries]
  | succ n ih =>
    rw [parseEntries, ih (by omega), entryAt_labelBlocks hn, parseEntry_entryOctets (h _ (List.getElem_mem _))]
    simp

theorem length_padBlock {os : List Octet} (h : os.length ≤ 512) : (padBlock os).length = 512 := by
  simp [padBlock]
  omega

/-- Up to 85 entries fill at most one block. -/
theorem length_entryBlock {es : List MapEntry} (h : es.length ≤ 85) : (padBlock (es.flatMap entryOctets)).length = 512 :=
  length_padBlock (by simp [List.length_flatMap]; omega)

/-- Octets 0 to 6 of label sector 0. -/
def labelHead (m : LabelImage) : List Octet := octetsOf 4 m.serial ++ octetsOf 2 m.generation ++ octetsOf 1 m.entries.length

/-- Label sector 0: its first seven octets, the check word, and zeros. -/
theorem labelBlocks_fst (m : LabelImage) : ∃ zeros, (labelBlocks m).1 =
    labelHead m ++ (checkOctets (labelCheck (labelHead m) (labelBlocks m).2.1 (labelBlocks m).2.2) ++ zeros) :=
  ⟨_, List.append_assoc _ _ _⟩

theorem labelRoundTrip_encoding (m : LabelImage) (hs : m.serial < 2 ^ 32) (hg : m.generation < 2 ^ 16)
    (hn : m.entries.length ≤ 128) (hfit : ∀ e ∈ m.entries, Fits e) (hclash : noClash m.entries = true) :
    readLabel (labelBlocks m).1 (labelBlocks m).2.1 (labelBlocks m).2.2 = some m := by
  obtain ⟨zeros, hzero⟩ := labelBlocks_fst m
  have hlen : (labelHead m).length = 7 := by simp [labelHead]
  have htake : (labelBlocks m).1.take 7 = labelHead m := by rw [hzero, List.take_left' hlen]
  have hword : ((labelBlocks m).1.drop 7).take 2 =
      checkOctets (labelCheck (labelHead m) (labelBlocks m).2.1 (labelBlocks m).2.2) := by
    rw [hzero, List.drop_left' hlen]
    exact List.take_left' rfl
  have hcheck : labelCheck (labelBlocks m).1 (labelBlocks m).2.1 (labelBlocks m).2.2 =
      labelCheck (labelHead m) (labelBlocks m).2.1 (labelBlocks m).2.2 := by
    rw [labelCheck, htake, labelCheck, List.take_of_length_le hlen.le]
  have hfields : (labelBlocks m).1 = octetsOf 4 m.serial ++ (octetsOf 2 m.generation ++ (octetsOf 1 m.entries.length ++
      (checkOctets (labelCheck (labelHead m) (labelBlocks m).2.1 (labelBlocks m).2.2) ++ zeros))) := by
    simp only [hzero, labelHead, List.append_assoc]
  have hserial : numberOf ((labelBlocks m).1.take 4) = m.serial := by
    rw [hfields, List.take_left' (length_octetsOf _ _), numberOf_octetsOf (by omega)]
  have hgeneration : numberOf (((labelBlocks m).1.drop 4).take 2) = m.generation := by
    rw [hfields, List.drop_left' (length_octetsOf _ _), List.take_left' (length_octetsOf _ _), numberOf_octetsOf (by omega)]
  have hcount : (octetAt (labelBlocks m).1 6).toNat = m.entries.length := by
    rw [hfields]
    exact octet_toNat (by omega)
  simp only [readLabel, hword, numberOf_checkOctets, hcheck, hcount, hserial, hgeneration,
    parseEntries_labelBlocks hfit le_rfl, List.take_length, hclash, Nat.not_lt.2 hn, ne_eq, not_true_eq_false, or_self,
    if_false, if_true]

end Sys2Proof.Proofs

/-! ### The ending of a request depends on no state or phase of its record (R55, R56, R63) -/

namespace Sys2Proof.Proofs
open Sys2Proof Sys2Proof.Machine Sys2Proof.Laws

section
variable {s t : State} {q r y : Request} {e : Ending} {n : Nat}

/-! #### A record replaced, seen from another request's leaving -/

theorem request?_withRequest_other (h : n ≠ q.rid) : (s.withRequest q).request? n = s.request? n := by
  have hfind : (s.withRequest q).table.find? (·.rid = n) = s.table.find? (·.rid = n) := by
    simp only [State.withRequest, List.find?_map]
    have hsame : ((fun x : Request => decide (x.rid = n)) ∘ fun x => if x.rid = q.rid then q else x) =
        fun x => decide (x.rid = n) := by
      funext x
      by_cases hx : x.rid = q.rid
      · simp [hx]
      · simp [hx]
    rw [hsame]
    cases hx : s.table.find? (·.rid = n) with
    | none => rfl
    | some x =>
      have hxn : x.rid = n := by simpa using List.find?_some hx
      simp [hxn, h]
  simp only [State.request?, hfind]
  rfl

/-- The failure an early-ended write carries, folded as it leaves (R150). -/
def folded (s : State) (y : Request) : State :=
  match y.failure with
  | some e => if y.earlyEnded then s.fold y e else s
  | none => s

/-- A drive's record as a request leaves its arm, where it owns it. -/
def lost (n : Nat) (dr : DriveRec) : DriveRec := if dr.owner = some n then dr.loseOwner else dr

/-- What a request gives up as it leaves the table (R63 step 4). -/
def gaveUp (s : State) (y : Request) (n : Nat) : State :=
  ((((folded s y).leavePaths n).freeSegmentsOf n).leaveBuffer n).onDrive y.drive (lost n)

theorem onDrive_lost (d : Drive) (n : Nat) :
    s.onDrive d (lost n) = if (s.drive d).owner = some n then s.onDrive d DriveRec.loseOwner else s := by
  split
  · next h => exact onDrive_congr (if_pos h)
  · next h => exact onDrive_id (if_neg h)

theorem leaveTable_some (h : s.request? n = some y) : s.leaveTable n =
    if y.kind = .labelUpdate then (gaveUp s y n).onDrive y.drive fun dr => { dr with labelUpdate := none }
    else { gaveUp s y n with table := (gaveUp s y n).table.filter (·.rid != n) } := by
  rw [gaveUp, onDrive_lost]
  unfold State.leaveTable
  rw [h]
  rfl

theorem folded_late (h : y.earlyEnded = false) : folded s y = s := by
  unfold folded
  split <;> simp [h]

theorem folded_withRequest : folded (s.withRequest q) y = (folded s y).withRequest q := by
  have hdrive : ∀ d, (s.withRequest q).drive d = s.drive d := fun _ => rfl
  unfold folded State.fold
  rw [hdrive]
  cases y.failure with
  | none => rfl
  | some e =>
    cases y.earlyEnded with
    | false => rfl
    | true => cases ofPort (s.drive y.drive).deferred y.port <;> rfl

theorem folded_table : (folded s y).table = s.table := by
  unfold folded State.fold
  split
  · split
    · split <;> rfl
    · rfl
  · rfl

theorem leavePaths_withRequest (n : Nat) : (s.withRequest q).leavePaths n = (s.leavePaths n).withRequest q :=
  leavePaths_comm (F := (·.withRequest q)) (fun _ _ _ _ => rfl) s n

theorem freeSegmentsOf_withRequest (n : Nat) : (s.withRequest q).freeSegmentsOf n = (s.freeSegmentsOf n).withRequest q := by
  have hstep : ∀ (s : State) (i : Fin 8),
      (if (s.withRequest q).segments[i] = some n then (s.withRequest q).setSegment i none else s.withRequest q) =
        State.withRequest (if s.segments[i] = some n then s.setSegment i none else s) q := fun s i => by
    have hi : (s.withRequest q).segments[i] = s.segments[i] := rfl
    rw [hi]
    split <;> rfl
  unfold State.freeSegmentsOf
  induction allDrives generalizing s with
  | nil => rfl
  | cons i l ih => rw [List.foldl_cons, List.foldl_cons, hstep, ih]

theorem onDrive_withRequest (d : Drive) (f : DriveRec → DriveRec) :
    (s.withRequest q).onDrive d f = (s.onDrive d f).withRequest q := rfl

theorem leaveBuffer_withRequest (n : Nat) : (s.withRequest q).leaveBuffer n = (s.leaveBuffer n).withRequest q := rfl

theorem gaveUp_withRequest (y : Request) (n : Nat) : gaveUp (s.withRequest q) y n = (gaveUp s y n).withRequest q := by
  rw [gaveUp, gaveUp, folded_withRequest, leavePaths_withRequest, freeSegmentsOf_withRequest, leaveBuffer_withRequest,
    onDrive_withRequest]

theorem gaveUp_table (y : Request) (n : Nat) : (gaveUp s y n).table = s.table := by
  have htable : (folded s y).table = s.table := folded_table
  unfold gaveUp
  generalize folded s y = u at *
  obtain ⟨v, hv, -⟩ := freeSegmentsOf_eq (u.leavePaths n) n
  obtain ⟨a, b, l, hl, -⟩ := leavePaths_eq u n
  rw [hv, hl]
  exact htable

/-- The state without the entry of a place. -/
def withoutEntry (s : State) (n : Nat) : State := { s with table := s.table.filter (·.rid != n) }

theorem withoutEntry_withRequest_other :
    withoutEntry (s.withRequest q) n = (withoutEntry s n).withRequest q := by
  have hfilter : ∀ l : List Request, (l.map fun x => if x.rid = q.rid then q else x).filter (·.rid != n) =
      (l.filter (·.rid != n)).map fun x => if x.rid = q.rid then q else x := fun l => by
    rw [List.filter_map]
    congr 2
    funext x
    by_cases hx : x.rid = q.rid <;> simp [hx]
  unfold withoutEntry State.withRequest
  rw [hfilter]

theorem withoutEntry_withRequest_same : withoutEntry (s.withRequest q) q.rid = withoutEntry s q.rid := by
  unfold withoutEntry State.withRequest
  rw [filter_map_rid]

theorem leaveTable_entry (h : s.request? n = some y) (hk : y.kind ≠ .labelUpdate) :
    s.leaveTable n = withoutEntry (gaveUp s y n) n := by
  rw [leaveTable_some h, if_neg hk, withoutEntry]

theorem leaveTable_update (h : s.request? n = some y) (hk : y.kind = .labelUpdate) :
    s.leaveTable n = (gaveUp s y n).onDrive y.drive fun dr => { dr with labelUpdate := none } := by
  rw [leaveTable_some h, if_pos hk]

/-- No request joins the table as one leaves it. -/
theorem mem_leaveTable (h : y ∈ (s.leaveTable n).table) : y ∈ s.table := by
  cases hn : s.request? n with
  | none => simpa [State.leaveTable, hn] using h
  | some x =>
    have htable := gaveUp_table (s := s) x n
    by_cases hk : x.kind = .labelUpdate
    · rw [leaveTable_update hn hk] at h
      generalize gaveUp s x n = t at *
      rw [← htable]
      exact h
    · rw [leaveTable_entry hn hk] at h
      generalize gaveUp s x n = t at *
      rw [← htable]
      exact List.mem_of_mem_filter h

theorem leaveTable_withRequest_other (h : n ≠ q.rid) : (s.withRequest q).leaveTable n = (s.leaveTable n).withRequest q := by
  cases hn : s.request? n with
  | none => simp [State.leaveTable, request?_withRequest_other h, hn]
  | some y =>
    have hn' := (request?_withRequest_other h).trans hn
    by_cases hk : y.kind = .labelUpdate
    · rw [leaveTable_update hn hk, leaveTable_update hn' hk, gaveUp_withRequest, onDrive_withRequest]
    · rw [leaveTable_entry hn hk, leaveTable_entry hn' hk, gaveUp_withRequest, withoutEntry_withRequest_other]

/-- A request leaves the table alike whatever its record's state. -/
theorem leaveTable_withRequest_same (h : s.request? q.rid = some r) (hid : q.rid = r.rid) (hdrive : q.drive = r.drive)
    (hq : q.kind ≠ .labelUpdate) (hr : r.kind ≠ .labelUpdate) (hqe : q.earlyEnded = false) (hre : r.earlyEnded = false)
    (hmem : r ∈ s.table) : (s.withRequest q).leaveTable q.rid = s.leaveTable q.rid := by
  have hreq : (s.withRequest q).request? q.rid = some q := request?_withRequest ⟨r, hmem, hid.symm⟩ rfl
  have hsame : gaveUp s q q.rid = gaveUp s r q.rid := by
    simp only [gaveUp, folded_late hqe, folded_late hre, hdrive]
  rw [leaveTable_entry hreq hq, leaveTable_entry h hr, gaveUp_withRequest, withoutEntry_withRequest_same, hsame]

theorem entry_leaveTable (h : s.entry r) (hn : n ≠ r.rid) : (s.leaveTable n).entry r := by
  refine ⟨?_, fun q hq => h.2.1 q (mem_leaveTable hq), h.2.2⟩
  cases hx : s.request? n with
  | none => simpa [State.leaveTable, hx] using h.1
  | some x =>
    have htable := gaveUp_table (s := s) x n
    by_cases hk : x.kind = .labelUpdate
    · rw [leaveTable_update hx hk]
      generalize gaveUp s x n = t at *
      exact htable ▸ h.1
    · rw [leaveTable_entry hx hk]
      generalize gaveUp s x n = t at *
      exact List.mem_filter.2 ⟨htable ▸ h.1, by simpa using hn.symm⟩

/-! #### A broken chain -/

/-- One member of a broken chain gone (R56). -/
def chainStep (s : State) (y : Request) : State :=
  ((s.reportEnding y (Ending.make .notRun .chainBroken) .none).markStanding y.port y.rid .endedOther).leaveTable y.rid

theorem breakChain_some {k m : Nat} (h : s.successor? m = some y) :
    s.breakChain (k + 1) m = (chainStep s y).breakChain k y.rid := by
  rw [State.breakChain, h]
  rfl

theorem breakChain_end {k m : Nat} (h : s.successor? m = none) : s.breakChain k m = s := by
  cases k with
  | zero => rfl
  | succ k => rw [State.breakChain, h]

/-- A search that passes over a record and over what replaces it finds the same. -/
theorem find?_replaced {p : Request → Bool} (hr : p r = false) (hq : p q = false) {l : List Request}
    (h : ∀ x ∈ l, x.rid = q.rid → x = r) : (l.map fun x => if x.rid = q.rid then q else x).find? p = l.find? p := by
  induction l with
  | nil => rfl
  | cons a l ih =>
    have ih := ih fun x hx => h x (by simp [hx])
    by_cases ha : a.rid = q.rid
    · rw [List.map_cons, if_pos ha, List.find?_cons_of_neg (by simp [hq]), ih, h a (by simp) ha,
        List.find?_cons_of_neg (by simp [hr])]
    · rw [List.map_cons, if_neg ha, List.find?_cons, List.find?_cons, ih]

/-- A request that waits behind no other is no successor, nor is a record put in its place. -/
theorem successor?_withRequest (h : s.entry r) (hr : r.state ≠ .waitingChain) (hid : q.rid = r.rid)
    (hq : q.state ≠ .waitingChain) (m : Nat) : (s.withRequest q).successor? m = s.successor? m :=
  find?_replaced (r := r) (by simp [hr]) (by simp [hq]) fun x hx hxq => h.2.1 x hx (hxq.trans hid)

theorem successor?_ne (h : s.entry r) (hr : r.state ≠ .waitingChain) {m : Nat} (hy : s.successor? m = some y) :
    y.rid ≠ r.rid := by
  intro hid
  have hwait := List.find?_some hy
  rw [h.2.1 y (List.mem_of_find?_eq_some hy) hid] at hwait
  simp [hr] at hwait

theorem chainStep_withRequest (h : y.rid ≠ q.rid) : chainStep (s.withRequest q) y = (chainStep s y).withRequest q :=
  leaveTable_withRequest_other
    (s := (s.reportEnding y (Ending.make .notRun .chainBroken) .none).markStanding y.port y.rid .endedOther) h

theorem entry_chainStep (h : s.entry r) (hne : y.rid ≠ r.rid) : (chainStep s y).entry r :=
  entry_leaveTable (s := (s.reportEnding y (Ending.make .notRun .chainBroken) .none).markStanding y.port y.rid .endedOther)
    h hne

theorem breakChain_withRequest (h : s.entry r) (hr : r.state ≠ .waitingChain) (hid : q.rid = r.rid)
    (hq : q.state ≠ .waitingChain) (k m : Nat) :
    (s.withRequest q).breakChain k m = (s.breakChain k m).withRequest q ∧ (s.breakChain k m).entry r := by
  induction k generalizing s m with
  | zero => exact ⟨rfl, h⟩
  | succ k ih =>
    have hsame := successor?_withRequest h hr hid hq m
    cases hy : s.successor? m with
    | none => rw [breakChain_end hy, breakChain_end (hsame.trans hy)]; exact ⟨rfl, h⟩
    | some y =>
      have hne := successor?_ne h hr hy
      rw [breakChain_some hy, breakChain_some (hsame.trans hy), chainStep_withRequest (hid ▸ hne)]
      exact ih (entry_chainStep h hne) _

/-! #### The ending of a request -/

/-- A request's record with its state and phase replaced. -/
def restated (r : Request) (st : ReqState) (ph : BlockPhase) : Request := { r with state := st, phase := ph }

/-- The notices of the report-after windows an ending meets (R175). -/
def windowsTold (s : State) (r : Request) (ms : List (Fin 4 × Window × Nat)) : State :=
  ms.foldl (fun s m => s.post m.2.1.owner .windowMatch (.window m.1) (.request r.port r.tag m.2.2)) s

theorem windowsTold_withRequest (ms : List (Fin 4 × Window × Nat)) :
    windowsTold (s.withRequest q) r ms = (windowsTold s r ms).withRequest q := by
  unfold windowsTold
  induction ms generalizing s with
  | nil => rfl
  | cons m ms ih =>
    rw [List.foldl_cons, List.foldl_cons, ← ih]
    rfl

theorem windowsTold_table (ms : List (Fin 4 × Window × Nat)) : (windowsTold s r ms).table = s.table := by
  unfold windowsTold
  induction ms generalizing s with
  | nil => rfl
  | cons m ms ih => exact ih

/-- The mark of the first window an ending meets. -/
def firstWindow : List (Fin 4 × Window × Nat) → Option (Nat × Nat)
  | [] => none
  | (i, _, t) :: _ => some (i.val, t)

/-- A request's record as the windows its ending meets leave it (R175). -/
def windowed (r : Request) (ms : List (Fin 4 × Window × Nat)) : Request :=
  if r.reachedArm then { r with windowMatch := firstWindow ms } else r

theorem reportAfter_entry (h : s.entry r) : s.reportAfter r =
    let ms := s.matching .reportAfter r.port r.drive r.kind r.extent
    if r.reachedArm then windowsTold (s.withRequest (windowed r ms)) r ms else s := by
  unfold State.reportAfter
  dsimp only
  split
  · next harm =>
    have hput : ∀ w, s.putRequest { r with windowMatch := w } = s.withRequest { r with windowMatch := w } :=
      fun w => putRequest_table (r := { r with windowMatch := w }) h.2.2
    have hmark : ∀ ms, windowed r ms = { r with windowMatch := firstWindow ms } := fun ms => if_pos harm
    rw [onRequest_some (request?_entry h), hput, hmark]
    rfl
  · rfl

theorem entry_of_table (ht : t.table = s.table) (h : s.entry r) : t.entry r :=
  ⟨ht ▸ h.1, fun q hq => h.2.1 q (ht ▸ hq), h.2.2⟩

theorem entry_withRequest (h : s.entry r) (hid : q.rid = r.rid) (hk : q.kind ≠ .labelUpdate) : (s.withRequest q).entry q := by
  refine ⟨List.mem_map.2 ⟨r, h.1, if_pos hid.symm⟩, fun x hx hxq => ?_, hk⟩
  obtain ⟨y, -, rfl⟩ := List.mem_map.1 hx
  by_cases hy : y.rid = q.rid
  · exact if_pos hy
  · rw [if_neg hy] at hxq
    exact absurd hxq hy

variable {st : ReqState} {ph : BlockPhase}

theorem windowed_restated (ms : List (Fin 4 × Window × Nat)) :
    windowed (restated r st ph) ms = restated (windowed r ms) st ph := by
  unfold windowed restated
  split <;> rfl

theorem windowed_keeps (ms : List (Fin 4 × Window × Nat)) : (windowed r ms).rid = r.rid ∧ (windowed r ms).kind = r.kind
    ∧ (windowed r ms).state = r.state ∧ (windowed r ms).earlyEnded = r.earlyEnded := by
  unfold windowed
  split <;> exact ⟨rfl, rfl, rfl, rfl⟩

/-- The window step of an ending depends on no state or phase of the request's record. -/
theorem reportAfter_restated (h : s.entry r) : ∃ r' : Request, (r'.rid = r.rid ∧ r'.state = r.state ∧ r'.earlyEnded = r.earlyEnded)
    ∧ (s.reportAfter r).entry r'
    ∧ (s.withRequest (restated r st ph)).reportAfter (restated r st ph) =
        (s.reportAfter r).withRequest (restated r' st ph) := by
  have hentry : (s.withRequest (restated r st ph)).entry (restated r st ph) := entry_withRequest h rfl h.2.2
  have hms : (s.withRequest (restated r st ph)).matching .reportAfter r.port r.drive r.kind r.extent =
      s.matching .reportAfter r.port r.drive r.kind r.extent := rfl
  rw [reportAfter_entry h, reportAfter_entry hentry]
  cases harm : r.reachedArm with
  | false =>
    have hq : (restated r st ph).reachedArm = false := harm
    simp only [hq, Bool.false_eq_true, if_false]
    exact ⟨r, ⟨rfl, rfl, rfl⟩, h, rfl⟩
  | true =>
    have hq : (restated r st ph).reachedArm = true := harm
    simp only [hq, if_true]
    generalize hm : s.matching .reportAfter r.port r.drive r.kind r.extent = ms at *
    obtain ⟨hrid, hkind, hstate, hearly⟩ := windowed_keeps (r := r) ms
    refine ⟨windowed r ms, ⟨hrid, hstate, hearly⟩, ?_, ?_⟩
    · exact entry_of_table (windowsTold_table ms) (entry_withRequest h hrid (hkind ▸ h.2.2))
    · have htold : ∀ t : State, windowsTold t (restated r st ph) ms = windowsTold t r ms := fun _ => rfl
      have hms' : (s.withRequest (restated r st ph)).matching .reportAfter (restated r st ph).port (restated r st ph).drive
          (restated r st ph).kind (restated r st ph).extent = ms := hms
      have hr1 : (restated r st ph).rid = (restated (windowed r ms) st ph).rid := hrid.symm
      have hr2 : (windowed r ms).rid = (restated (windowed r ms) st ph).rid := rfl
      rw [hms', htold, windowed_restated, withRequest_withRequest hr1, ← withRequest_withRequest hr2, windowsTold_withRequest]

/-- The table entry of an ending request goes alike whatever its state and phase. -/
theorem leaveTable_restated (h : s.entry r) (he : r.earlyEnded = false) :
    (s.withRequest (restated r st ph)).leaveTable r.rid = s.leaveTable r.rid :=
  leaveTable_withRequest_same (q := restated r st ph) (r := r) (request?_entry h) rfl rfl h.2.2 h.2.2 he he h.1

/-- An ending that breaks the request's chain depends on no state or phase of its record. -/
theorem endBroken_restated (h : s.entry r) (he : r.earlyEnded = false) (hr : r.state ≠ .waitingChain) (hst : st ≠ .waitingChain)
    (b : Body) : (s.withRequest (restated r st ph)).endBroken (restated r st ph) e b = s.endBroken r e b := by
  obtain ⟨r', ⟨hrid, hstate, hearly⟩, hentry, hafter⟩ :=
    reportAfter_restated (s := s.reportEnding r e b) (st := st) (ph := ph) h
  have hreport : (s.withRequest (restated r st ph)).reportEnding (restated r st ph) e b =
      (s.reportEnding r e b).withRequest (restated r st ph) := rfl
  unfold State.endBroken
  dsimp only
  rw [hreport, hafter]
  generalize (s.reportEnding r e b).reportAfter r = t at *
  have hmark : (t.withRequest (restated r' st ph)).markStanding (restated r st ph).port (restated r st ph).rid .endedOther =
      (t.markStanding r.port r.rid .endedOther).withRequest (restated r' st ph) := rfl
  have hentry : (t.markStanding r.port r.rid .endedOther).entry r' := hentry
  rw [hmark]
  generalize t.markStanding r.port r.rid .endedOther = u at *
  have hlength : (t.withRequest (restated r' st ph)).table.length = t.table.length := List.length_map _
  obtain ⟨hchain, hentry'⟩ := breakChain_withRequest (q := restated r' st ph) hentry (hstate ▸ hr) rfl hst
    t.table.length r.rid
  have hleave := leaveTable_restated (st := st) (ph := ph) hentry' (hearly ▸ he)
  rw [hrid] at hleave
  rw [hlength]
  exact (congrArg (State.leaveTable · r.rid) hchain).trans hleave

/-- Nor does a DONE ending. -/
theorem endDone_restated (h : s.entry r) (he : r.earlyEnded = false) (b : Body) :
    (s.withRequest (restated r st ph)).endDone (restated r st ph) e b = s.endDone r e b := by
  obtain ⟨r', ⟨hrid, hstate, hearly⟩, hentry, hafter⟩ :=
    reportAfter_restated (s := s.reportEnding r e b) (st := st) (ph := ph) h
  have hreport : (s.withRequest (restated r st ph)).reportEnding (restated r st ph) e b =
      (s.reportEnding r e b).withRequest (restated r st ph) := rfl
  unfold State.endDone State.reportDone
  rw [hreport, hafter]
  generalize (s.reportEnding r e b).reportAfter r = t at *
  have hmark : (t.withRequest (restated r' st ph)).markStanding (restated r st ph).port (restated r st ph).rid .endedDone =
      (t.markStanding r.port r.rid .endedDone).withRequest (restated r' st ph) := rfl
  have hentry : (t.markStanding r.port r.rid .endedDone).entry r' := hentry
  have hleave := leaveTable_restated (st := st) (ph := ph) hentry (hearly ▸ he)
  rw [hrid] at hleave
  rw [hmark]
  exact congrArg (State.releaseBehind · r.rid) hleave

theorem conclude_restated (h : s.entry r) (he : r.earlyEnded = false) (hd : r.detached = false) (hr : r.state ≠ .waitingChain)
    (hst : st ≠ .waitingChain) : (s.withRequest (restated r st ph)).conclude r.rid e = s.conclude r.rid e := by
  have hreq : (s.withRequest (restated r st ph)).request? r.rid = some (restated r st ph) :=
    request?_entry (entry_withRequest (q := restated r st ph) h rfl h.2.2)
  have hq : (restated r st ph).earlyEnded = false ∧ (restated r st ph).detached = false
    ∧ (restated r st ph).kind ≠ .labelUpdate := ⟨he, hd, h.2.2⟩
  simp only [State.conclude, hreq, request?_entry h, he, hd, h.2.2, hq, Bool.false_eq_true, if_false, or_self,
    endDone_restated h he, endBroken_restated h he hr hst]

end
end Sys2Proof.Proofs

/-! ### The sector events of a label write (R131) -/

namespace Sys2Proof.Proofs
open Sys2Proof Sys2Proof.Machine Sys2Proof.Laws

section
variable {s : State} {d : Drive} {n : Fin 24} {read : SurfaceRead} {r : Request} {j : LabelJob}

/-- The state at a sector mark: the counter on, the elapsed time 0 (R31). -/
def atMark (s : State) (d : Drive) (n : Fin 24) : State := s.onDrive d fun dr => { dr with sector := n.val, elapsed := 0 }

theorem atMark_drive : (atMark s d n).drive d = { s.drive d with sector := n.val, elapsed := 0 } := drive_onDrive_same _

theorem exec_sectorEvent (hp : s.powered = true) (hm : (s.drive d).motor = .atSpeed) :
    exec (.sectorEvent d n read) s = .next (s.close (s.sectorEvent d n.val read)) := by
  show execSectorEvent d n read s = _
  simp [execSectorEvent, live_powered hp, hm]

/-- The sector event of a label write's leg is the end of its label sector. -/
theorem sectorEvent_label (h : s.onSector d r) (hop : r.op = none) (hj : r.label = some j) :
    exec (.sectorEvent d n read) s = .next (s.close ((atMark s d n).labelSectorEnds d r n.val (labelLeg j) j
      ((s.drive d).found (labelSector j.step) read))) := by
  obtain ⟨hp, hm, hready, howner, hentry, hd, -, hphase, -⟩ := h
  have hmark : (s.onDrive d fun dr => { dr with sector := n.val, elapsed := 0 }) = atMark s d n := rfl
  have hstate : ((atMark s d n).drive d).state = .ready := by rw [atMark_drive]; exact hready
  have hreq : (atMark s d n).owner? d = some r := by
    have ho : ((atMark s d n).drive d).owner = some r.rid := by rw [atMark_drive]; exact howner
    simp only [State.owner?, ho]
    exact (request?_onDrive rfl _).trans (request?_entry hentry)
  have hleg : (atMark s d n).leg r = labelLeg j := by simp [State.leg, legOf, hop, hj]
  have hfound : ((atMark s d n).drive d).found (labelSector j.step) read = (s.drive d).found (labelSector j.step) read := by
    rw [atMark_drive]
    rfl
  rw [exec_sectorEvent hp hm]
  simp only [State.sectorEvent, hmark, hstate, hreq, State.ownerSector, hphase, State.sectorEnds, hop, hj, hleg, labelLeg,
    hfound]

/-! #### Steps of a leg, in turn -/

/-- A leg's path released, its request POSITIONED (R96, R98). -/
theorem releaseLeg_onPath0 (h : s.onPath0 r) (hentry : s.entry r) (hop : r.op = none) :
    s.releaseLeg r.rid = s.path0Handed.withRequest (restated r .positioned .idle) := by
  obtain ⟨h0, h1, -⟩ := h
  have hpath : s.releasePath r.rid = s.path0Handed := by
    have hclaimed : s.path0.holds r.rid = true := by simp [h0, PathState.holds]
    rw [releasePath_eq_released]
    simp only [released, hclaimed, h1, if_true, Bool.false_eq_true, if_false]
    rfl
  have hreq : s.path0Handed.request? r.rid = some r := request?_entry (s := s.path0Handed) hentry
  have hin : { r.inState .positioned with phase := .idle } = restated r .positioned .idle := by
    simp [Request.inState, hop, restated]
  unfold State.releaseLeg
  rw [hpath, onRequest_some hreq, hin, putRequest_table (r := restated r .positioned .idle) hentry.2.2]

/-- A leg goes on with the next sector, its request PASSING as before (R98). -/
theorem beginBlock_again {q : Request} {m : Nat} (h : s.entry r) (hid : q.rid = r.rid) (hk : q.kind ≠ .labelUpdate)
    (hphase : q.phase = .passing) (hsector : (s.leg q).sector = m)
    (hfault : (s.leg q).writesData = true → (s.drive d).writeFault = false) :
    (s.withRequest q).beginBlock d r.rid m = s.withRequest q := by
  have hreq : (s.withRequest q).request? r.rid = some q := hid ▸ request?_entry (entry_withRequest h hid hk)
  have hleg : (s.withRequest q).leg q = s.leg q := rfl
  have hdrive : (s.withRequest q).drive d = s.drive d := rfl
  have hsame : { q with phase := .passing } = q := by rw [← hphase]
  simp only [State.beginBlock, hreq, hleg, hdrive, hsector, ne_eq, not_true_eq_false, if_false]
  rw [if_neg (by rintro ⟨hw, hf⟩; rw [hfault hw] at hf; cases hf), onRequest_some hreq, hsame, putRequest_table hk,
    withRequest_withRequest rfl]

/-- A write leg's sector at its end (R98): the block recorded where the heads stand. -/
def recordedAt (s : State) (d : Drive) (sec : Nat) (found : Sector) (b : Block) : State :=
  s.onDrive d fun dr => dr.record (dr.underHeads sec) (overwrite (dr.recorded (dr.underHeads sec)) found b)

/-- The request of a label write with its job at a further step, the retry counter 0 (R131). -/
def labelStepped (r : Request) (j : LabelJob) : Request := { r with label := some j, retries := 0 }

theorem onRequest_labelStepped (h : s.entry r) (j : LabelJob) :
    (s.onRequest r.rid fun q => { q with label := some j, retries := 0 }) = s.withRequest (labelStepped r j) := by
  rw [onRequest_some (request?_entry h)]
  exact putRequest_table (r := labelStepped r j) h.2.2

theorem labelSectorEnds_write {m : Nat} {found : Sector} (h : s.entry r) (hop : r.op = none) (hj : r.label = some j)
    (hpend : r.pendingEnding = none) (hstep : j.step < 3)
    (hid : idCondition found.id (s.drive d).curCyl (s.drive d).head (labelSector j.step) .label = none) :
    s.labelSectorEnds d r m (labelLeg j) j found =
      let w := (recordedAt s d (labelSector j.step) found j.blockToWrite).withRequest
        (labelStepped r { j with step := j.step + 1 })
      if j.step = 0 then w.beginBlock d r.rid m else w.releaseLeg r.rid := by
  have hwritten : ∀ old, s.written r old found = overwrite old found j.blockToWrite := fun old => by
    simp [State.written, hop, hj]
  have hrecord : (s.onDrive d fun dr => dr.record ((s.drive d).underHeads (labelSector j.step))
      (s.written r (dr.recorded ((s.drive d).underHeads (labelSector j.step))) found)) =
      recordedAt s d (labelSector j.step) found j.blockToWrite := onDrive_congr (by rw [hwritten])
  have hentry : (recordedAt s d (labelSector j.step) found j.blockToWrite).entry r := h
  unfold State.labelSectorEnds
  simp only [hstep, if_true, labelLeg, hid, hrecord, hpend]
  rw [onRequest_labelStepped hentry]

theorem labelSectorEnds_read {m : Nat} {found : Sector} (h : s.entry r)
    (hpend : r.pendingEnding = none) (hstep : j.step = 3 ∨ j.step = 4)
    (hread : readCondition found (s.drive d).curCyl (s.drive d).head (labelSector j.step) .label = none) :
    s.labelSectorEnds d r m (labelLeg j) j found =
      (s.withRequest (labelStepped r { j with step := j.step + 1, back := j.back ++ [found.data.block] })).beginBlock
        d r.rid m := by
  have h3 : ¬j.step < 3 := by omega
  have h5 : j.step < 5 := by omega
  unfold State.labelSectorEnds
  simp only [h3, h5, if_true, if_false, labelLeg, hread, hpend]
  rw [onRequest_labelStepped h]

theorem labelSectorEnds_last {m : Nat} {found : Sector} (hpend : r.pendingEnding = none) (hstep : j.step = 5)
    (hread : readCondition found (s.drive d).curCyl (s.drive d).head (labelSector j.step) .label = none) :
    s.labelSectorEnds d r m (labelLeg j) j found =
      let back := j.back ++ [found.data.block]
      if readLabel (back.getD 0 []) (back.getD 1 []) (back.getD 2 []) = some j.image then
        ((s.releaseLeg r.rid).onDrive d fun dr =>
          { dr with map := { dr.map with labelState := .current, generation := j.image.generation } }).conclude r.rid
            (Ending.make .done .none)
      else (s.releaseLeg r.rid).labelAttemptFails r.rid j := by
  have h3 : ¬j.step < 3 := by omega
  have h5 : ¬j.step < 5 := by omega
  unfold State.labelSectorEnds
  simp only [h3, h5, if_false, labelLeg, hread, hpend]

/-- The last attempt of a label write fails (R131, R136): the label STALE, LABEL_FAULT to all four ports, and the request
ended. -/
theorem labelAttemptFails_last (hlimit : s.settings.retryLimit ≤ j.attempt) (h : s.entry r) (hd : r.drive = d) :
    s.labelAttemptFails r.rid j = ((s.onDrive d fun dr => { dr with map := { dr.map with labelState := .stale } }).postAll
      .labelFault d).conclude r.rid (Ending.at .ended .writeCheck { cyl := 568, head := 0, sector := 0 }) := by
  simp only [State.labelAttemptFails, Nat.not_lt.2 hlimit, if_false, State.labelFails, request?_entry h, hd]
  rfl

/-! #### The label write's sector events -/

theorem leg_labelStepped (hop : r.op = none) (j : LabelJob) : s.leg (labelStepped r j) = labelLeg j := by
  simp [State.leg, legOf, labelStepped, hop]

theorem recordedAt_writeFault (sec : Nat) (found : Sector) (b : Block) :
    ((recordedAt s d sec found b).drive d).writeFault = (s.drive d).writeFault := by
  rw [recordedAt, drive_onDrive_same]
  rfl

/-- What stands of a request whose sector is passing, nothing pending on it. -/
theorem onSector_facts (h : s.onSector d r) : s.entry r ∧ r.drive = d ∧ r.phase = .passing ∧ r.detached = false
    ∧ r.state ≠ .waitingChain ∧ r.pendingEnding = none := by
  obtain ⟨-, -, -, -, hentry, hdrive, hstate, hphase, hcancel, hdetached, hheld⟩ := h
  refine ⟨hentry, hdrive, hphase, hdetached, ?_, by simp [Request.pendingEnding, hcancel, hdetached, hheld]⟩
  rcases hstate with hst | hst <;> simp [hst]

/-- Sector 1 recorded, the leg goes on with sector 2. -/
theorem label_step_zero (h : s.onSector d r) (hop : r.op = none) (hj : r.label = some j) (hstep : j.step = 0)
    (hid : idCondition ((s.drive d).found 1 read).id (s.drive d).curCyl (s.drive d).head 1 .label = none)
    (hn : n.val = 2) (hfault : (s.drive d).writeFault = false) :
    exec (.sectorEvent d n read) s = .next (s.close
      ((recordedAt (atMark s d n) d 1 ((s.drive d).found 1 read) (labelBlocks j.image).2.1).withRequest
        (labelStepped r { j with step := 1 }))) := by
  have hsec : labelSector j.step = 1 := by rw [hstep]; rfl
  have hblock : j.blockToWrite = (labelBlocks j.image).2.1 := by simp [LabelJob.blockToWrite, hstep]
  obtain ⟨hentry, hdrive, hphase, hdetached, hwait, hpend⟩ := onSector_facts h
  rw [sectorEvent_label h hop hj, hsec, labelSectorEnds_write (s := atMark s d n) hentry hop hj hpend
    (by omega) (by rw [atMark_drive, hsec]; exact hid), hsec, hblock]
  simp only [hstep, if_true]
  have hagain := beginBlock_again (s := recordedAt (atMark s d n) d 1 ((s.drive d).found 1 read) (labelBlocks j.image).2.1)
    (d := d) (r := r) (q := labelStepped r { j with step := 1 }) (m := n.val) hentry rfl hentry.2.2 hphase
    (by rw [leg_labelStepped hop]; exact hn.symm) (by rw [recordedAt_writeFault, atMark_drive]; exact fun _ => hfault)
  exact congrArg _ (congrArg _ hagain)

/-- Sector 2 or 0 recorded, the leg releases its path. -/
theorem label_step_release {sec : Nat} {b : Block} (h : s.onSector d r) (hop : r.op = none) (hj : r.label = some j)
    (hstep : j.step = 1 ∨ j.step = 2) (hsec : labelSector j.step = sec) (hb : j.blockToWrite = b)
    (hid : idCondition ((s.drive d).found sec read).id (s.drive d).curCyl (s.drive d).head sec .label = none)
    (hpath : s.onPath0 r) :
    exec (.sectorEvent d n read) s = .next (s.close
      ((recordedAt (atMark s d n) d sec ((s.drive d).found sec read) b).path0Handed.withRequest
          (restated (labelStepped r { j with step := j.step + 1 }) .positioned .idle))) := by
  obtain ⟨hentry, hdrive, hphase, hdetached, hwait, hpend⟩ := onSector_facts h
  have hzero : j.step ≠ 0 := by omega
  rw [sectorEvent_label h hop hj, labelSectorEnds_write (s := atMark s d n) hentry hop hj hpend
    (by omega) (by rw [atMark_drive, hsec]; exact hid), hsec, hb]
  simp only [hzero, if_false]
  generalize hw : recordedAt (atMark s d n) d sec ((s.drive d).found sec read) b = w
  have hw' : w.entry r ∧ w.onPath0 r := by
    rw [← hw]
    exact ⟨hentry, hpath⟩
  have hrelease := releaseLeg_onPath0 (s := w.withRequest (labelStepped r { j with step := j.step + 1 }))
    (r := labelStepped r { j with step := j.step + 1 }) hw'.2 (entry_withRequest hw'.1 rfl hentry.2.2) hop
  refine congrArg _ (congrArg _ (hrelease.trans ?_))
  exact withRequest_withRequest (s := w.path0Handed) rfl

/-- Sector 0 or 1 read back, the leg goes on with the next. -/
theorem label_step_read {sec : Nat} (h : s.onSector d r) (hop : r.op = none) (hj : r.label = some j)
    (hstep : j.step = 3 ∨ j.step = 4) (hsec : labelSector j.step = sec)
    (hread : readCondition ((s.drive d).found sec read) (s.drive d).curCyl (s.drive d).head sec .label = none)
    (hn : n.val = sec + 1) :
    exec (.sectorEvent d n read) s = .next (s.close ((atMark s d n).withRequest
      (labelStepped r { j with step := j.step + 1, back := j.back ++ [((s.drive d).found sec read).data.block] }))) := by
  obtain ⟨hentry, hdrive, hphase, hdetached, hwait, hpend⟩ := onSector_facts h
  rw [sectorEvent_label h hop hj, labelSectorEnds_read (s := atMark s d n) hentry hpend hstep
    (by rw [atMark_drive, hsec]; exact hread), hsec]
  refine congrArg _ (congrArg _ (beginBlock_again (s := atMark s d n) (r := r) hentry rfl hentry.2.2 hphase ?_ ?_))
  · rw [leg_labelStepped hop, hn, ← hsec]
    rcases hstep with hstep | hstep <;> simp [labelLeg, labelSector, hstep]
  · rw [leg_labelStepped hop]
    rcases hstep with hstep | hstep <;> simp [labelLeg, hstep]

/-- The last sector read back, the label as its image: the label is CURRENT and the request ends DONE. -/
theorem label_step_done (h : s.onSector d r) (he : r.earlyEnded = false) (hop : r.op = none) (hj : r.label = some j)
    (hstep : j.step = 5)
    (hread : readCondition ((s.drive d).found 2 read) (s.drive d).curCyl (s.drive d).head 2 .label = none)
    (hpath : s.onPath0 r)
    (hsame : let back := j.back ++ [((s.drive d).found 2 read).data.block]
      readLabel (back.getD 0 []) (back.getD 1 []) (back.getD 2 []) = some j.image) :
    exec (.sectorEvent d n read) s = .next (s.close (((atMark s d n).path0Handed.onDrive d fun dr =>
      { dr with map := { dr.map with labelState := .current, generation := j.image.generation } }).conclude r.rid
        (Ending.make .done .none))) := by
  obtain ⟨hentry, hdrive, hphase, hdetached, hwait, hpend⟩ := onSector_facts h
  have hsec : labelSector j.step = 2 := by rw [hstep]; rfl
  rw [sectorEvent_label h hop hj, hsec, labelSectorEnds_last (s := atMark s d n) hpend hstep
    (by rw [atMark_drive, hsec]; exact hread), releaseLeg_onPath0 (s := atMark s d n) hpath hentry hop]
  dsimp only
  rw [if_pos hsame, onDrive_withRequest]
  refine congrArg _ (congrArg _ (conclude_restated (s := (atMark s d n).path0Handed.onDrive d _) hentry he
    hdetached hwait nofun))

theorem postAll_withRequest {q : Request} (k : NoticeKind) : (s.withRequest q).postAll k d = (s.postAll k d).withRequest q := by
  rw [postAll_eq, postAll_eq]
  rfl

/-- The last sector read back, the label not as its image, at the last attempt: it is STALE, and the request ends. -/
theorem label_step_fails (h : s.onSector d r) (he : r.earlyEnded = false) (hop : r.op = none) (hj : r.label = some j)
    (hstep : j.step = 5)
    (hread : readCondition ((s.drive d).found 2 read) (s.drive d).curCyl (s.drive d).head 2 .label = none)
    (hpath : s.onPath0 r) (hlimit : s.settings.retryLimit ≤ j.attempt)
    (hsame : let back := j.back ++ [((s.drive d).found 2 read).data.block]
      ¬readLabel (back.getD 0 []) (back.getD 1 []) (back.getD 2 []) = some j.image) :
    exec (.sectorEvent d n read) s = .next (s.close ((((atMark s d n).path0Handed.onDrive d fun dr =>
      { dr with map := { dr.map with labelState := .stale } }).postAll .labelFault d).conclude r.rid
        (Ending.at .ended .writeCheck { cyl := 568, head := 0, sector := 0 }))) := by
  obtain ⟨hentry, hdrive, hphase, hdetached, hwait, hpend⟩ := onSector_facts h
  have hsec : labelSector j.step = 2 := by rw [hstep]; rfl
  rw [sectorEvent_label h hop hj, hsec, labelSectorEnds_last (s := atMark s d n) hpend hstep
    (by rw [atMark_drive, hsec]; exact hread), releaseLeg_onPath0 (s := atMark s d n) hpath hentry hop]
  dsimp only
  have hentry' : ((atMark s d n).path0Handed.withRequest (restated r .positioned .idle)).entry (restated r .positioned .idle) :=
    entry_withRequest (s := (atMark s d n).path0Handed) (r := r) hentry rfl hentry.2.2
  have hfails := labelAttemptFails_last (s := (atMark s d n).path0Handed.withRequest (restated r .positioned .idle)) (d := d)
    (j := j) hlimit hentry' hdrive
  rw [if_neg hsame]
  refine congrArg _ (congrArg _ (hfails.trans ?_))
  rw [onDrive_withRequest, postAll_withRequest]
  refine conclude_restated (entry_of_table (s := s) ?_ hentry) he hdetached hwait nofun
  rw [postAll_frame]
  rfl

end
end Sys2Proof.Proofs

/-! ### The end of a load (R24, R25, R116, R132) -/

namespace Sys2Proof.Proofs
open Sys2Proof Sys2Proof.Machine Sys2Proof.Laws

section
variable {s : State} {d : Drive} {n : Fin 24} {read : SurfaceRead} {label : Option LabelImage}

/-- Attention set for all four ports on one drive, with its notices (R160). -/
theorem attention_all (s : State) (d : Drive) (r : AttnReason) :
    let t := forPorts (fun s p => s.setAttention d p r) s
    t = { s.onDrive d fun dr => { dr with unit := { dr.unit with attention := Vector.replicate 4 (some r) } } with
        ports := t.ports }
      ∧ ∀ q, t.port q = (s.port q).posted .attention (.drive d) (.reason r) := by
  constructor
  · have hdrive : ∀ (s : State) (p : Port) (f : PortRec → PortRec) (g : DriveRec → DriveRec),
        (s.onPort p f).onDrive d g = (s.onDrive d g).onPort p f := fun _ _ _ _ => rfl
    simp only [forPorts, allPorts, List.foldl, State.setAttention, post_eq, hdrive, onDrive_onDrive, setOfPort_all]
    rfl
  · intro q
    simp only [forPorts, allPorts, List.foldl, State.setAttention, post_eq]
    cases q <;> simp [port_onPort_other]

/-- The START DRIVE requests that wait at a drive. -/
def startsAt (s : State) (d : Drive) : List Request :=
  s.table.filter fun q => decide (q.drive = d) && decide (q.kind = .startDrive) && decide (q.state = .controlWait)

/-- A drive's record as its load completes, but for the spares-low check and attention (R25). -/
def loaded (label : Option LabelImage) (dr : DriveRec) : DriveRec :=
  { dr with
    map := loadedMap label, serial := label.map (·.serial)
    state := .ready, arm := .idle, owner := none, load := LoadRec.initial }

/-- The state as a load completes, before its START DRIVE requests end (R25). -/
def loadedState (s : State) (d : Drive) (label : Option LabelImage) : State :=
  forPorts (fun s p => s.setAttention d p .packReady)
    (State.sparesWarned ((if label.isNone then s.postAll .labelFault d else s).onDrive d (loaded label)) d)

theorem loadedMap_armed (label : Option LabelImage) : (loadedMap label).armed = true := by cases label <;> rfl

/-- Few alternates are free in the map as loaded (R132). -/
def fewFree (label : Option LabelImage) : Bool := decide ((freeIndices (loadedMap label).entries).length ≤ 8)

/-- An empty map leaves all 128 alternates free. -/
theorem fewFree_none : fewFree none = false := by
  have hfree : freeIndices [] = List.range 128 :=
    List.filter_eq_self.2 fun k hk => by simpa [isFreeIndex] using List.mem_range.1 hk
  simp [fewFree, loadedMap, hfree]

theorem postAll_onDrive (k : NoticeKind) (f : DriveRec → DriveRec) (e : Drive) :
    (s.onDrive e f).postAll k d = (s.postAll k d).onDrive e f := by
  rw [postAll_eq, postAll_eq]
  rfl

/-- The notice of an unreadable label, and then the drive's record. -/
theorem faultTold_spec (s : State) (d : Drive) (b : Bool) (f : DriveRec → DriveRec) :
    let t := (if b then s.postAll .labelFault d else s).onDrive d f
    t = { s.onDrive d f with ports := t.ports }
      ∧ ∀ q, t.port q = if b then (s.port q).posted .labelFault (.drive d) .none else s.port q := by
  cases b with
  | false => exact ⟨rfl, fun _ => rfl⟩
  | true =>
    simp only [if_true]
    refine ⟨?_, fun q => ?_⟩
    · rw [postAll_frame]
      rfl
    · rw [onDrive_port, postAll_port]

/-- The spares-low check of a drive whose map has just been loaded (R132). -/
theorem sparesWarned_spec {t : State} (hm : (t.drive d).map = loadedMap label) :
    let u := t.sparesWarned d
    u = { t.onDrive d (fun dr => { dr with map := { loadedMap label with armed := !fewFree label } }) with ports := u.ports }
      ∧ ∀ q, u.port q = if fewFree label then (t.port q).posted .sparesLow (.drive d) .none else t.port q := by
  cases hfew : fewFree label with
  | true =>
    have hlow := of_decide_eq_true hfew
    simp only [State.sparesWarned, hm, loadedMap_armed, hlow, and_self, if_true, Bool.not_true]
    refine ⟨?_, fun q => by simp [State.port]⟩
    have hsame : (t.onDrive d fun dr => { dr with map := { dr.map with armed := false } }) =
        t.onDrive d fun dr => { dr with map := { loadedMap label with armed := false } } := onDrive_congr (by rw [hm])
    rw [hsame]
  | false =>
    have hlow := of_decide_eq_false hfew
    simp only [State.sparesWarned, hm, hlow, and_false, if_false, Bool.not_false, Bool.false_eq_true]
    have hmap : { loadedMap label with armed := true } = loadedMap label := by cases label <;> rfl
    have hsame : (t.onDrive d fun dr => { dr with map := { loadedMap label with armed := true } }) = t :=
      onDrive_id (by rw [hmap, ← hm])
    exact ⟨by rw [hsame], fun _ => trivial⟩

/-- What a completed load leaves: the drive's record, and each port's notices in turn. -/
theorem loadedState_spec (s : State) (d : Drive) (label : Option LabelImage) :
    let t := loadedState s d label
    t = { s.onDrive d fun dr => { loaded label dr with
            map := { loadedMap label with armed := !fewFree label }
            unit := { dr.unit with attention := Vector.replicate 4 (some .packReady) } } with ports := t.ports }
      ∧ ∀ q, t.port q =
          let told := if label.isNone then (s.port q).posted .labelFault (.drive d) .none else s.port q
          PortRec.posted (if fewFree label then told.posted .sparesLow (.drive d) .none else told) .attention (.drive d)
            (.reason .packReady) := by
  obtain ⟨hframe, hport⟩ := faultTold_spec s d label.isNone (loaded label)
  unfold loadedState
  dsimp only
  generalize (if label.isNone then s.postAll .labelFault d else s).onDrive d (loaded label) = t at *
  obtain ⟨hframe', hport'⟩ := sparesWarned_spec (label := label) (t := t) (d := d) (by
    rw [hframe]
    exact congrArg DriveRec.map (drive_onDrive_same (s := s) _))
  generalize t.sparesWarned d = u at *
  obtain ⟨hframe'', hport''⟩ := attention_all u d .packReady
  generalize forPorts _ u = v at *
  refine ⟨?_, fun q => by rw [hport'', hport', hport]⟩
  have hrecord : (s.onDrive d fun dr => { loaded label dr with
      map := { loadedMap label with armed := !fewFree label }
      unit := { dr.unit with attention := Vector.replicate 4 (some .packReady) } }) =
      ((s.onDrive d (loaded label)).onDrive d fun dr =>
        { dr with map := { loadedMap label with armed := !fewFree label } }).onDrive d fun dr =>
          { dr with unit := { dr.unit with attention := Vector.replicate 4 (some .packReady) } } := by
    simp only [onDrive_onDrive]
    rfl
  rw [hframe'', hframe', hframe, hrecord]
  rfl

theorem loadComplete_eq (s : State) (d : Drive) (label : Option LabelImage) :
    s.loadComplete d label = (loadedState s d label).endTogether ((startsAt s d).map (·.rid)) := by
  have htable : (loadedState s d label).table = s.table := by
    rw [(loadedState_spec s d label).1]
    rfl
  have hstarts : startsAt (loadedState s d label) d = startsAt s d := by rw [startsAt, htable, startsAt]
  rw [← hstarts]
  have hmade : ((if label.isNone then
        (s.onDrive d fun dr => { dr with map := loadedMap label, serial := label.map (·.serial) }).postAll .labelFault d
      else s.onDrive d fun dr => { dr with map := loadedMap label, serial := label.map (·.serial) }).onDrive d fun dr =>
        { dr with state := .ready, arm := .idle, owner := none, load := LoadRec.initial }) =
      (if label.isNone then s.postAll .labelFault d else s).onDrive d (loaded label) := by
    rw [postAll_onDrive, ← apply_ite (State.onDrive · d _), onDrive_onDrive]
    rfl
  unfold State.loadComplete
  simp only [hmade, checkSpares_eq]
  rfl

/-- The last sector of a load's label read completes the load. -/
theorem sectorEvent_load (hp : s.powered = true) (hm : (s.drive d).motor = .atSpeed) (hs : (s.drive d).state = .loading)
    (hstep : (s.drive d).load.step = .read) (hpass : (s.drive d).load.passing = true) (hsec : (s.drive d).load.sector = 2)
    (hread : readCondition ((s.drive d).found 2 read) (s.drive d).curCyl (s.drive d).head 2 .label = none)
    (hlabel : let blocks := (s.drive d).load.blocks ++ [((s.drive d).found 2 read).data.block]
      readLabel (blocks.getD 0 []) (blocks.getD 1 []) (blocks.getD 2 []) = label) :
    exec (.sectorEvent d n read) s =
      .next (s.close ((loadedState (atMark s d n) d label).endTogether ((startsAt s d).map (·.rid)))) := by
  have hmark : (s.onDrive d fun dr => { dr with sector := n.val, elapsed := 0 }) = atMark s d n := rfl
  have hdrive := atMark_drive (s := s) (d := d) (n := n)
  have hstate : ((atMark s d n).drive d).state = .loading := by rw [hdrive]; exact hs
  have hload : ((atMark s d n).drive d).load = (s.drive d).load := by rw [hdrive]
  have hfound : ((atMark s d n).drive d).found 2 read = (s.drive d).found 2 read := by rw [hdrive]; rfl
  have hread' : readCondition ((s.drive d).found 2 read) ((atMark s d n).drive d).curCyl ((atMark s d n).drive d).head 2
      .label = none := by rw [hdrive]; exact hread
  have hstarts : startsAt (atMark s d n) d = startsAt s d := rfl
  rw [exec_sectorEvent hp hm, ← hstarts, ← loadComplete_eq, ← hlabel]
  simp only [State.sectorEvent, hmark, hstate, hload, hstep, if_true, State.loadSector, hpass, hsec, hfound, hread',
    Nat.lt_irrefl, if_false]

/-- What a load completed at a sector mark leaves of the drives and the rest. -/
theorem loadedState_atMark : let t := loadedState (atMark s d n) d label
    t = { s.onDrive d fun dr => { loaded label dr with
          sector := n.val, elapsed := 0, map := { loadedMap label with armed := !fewFree label }
          unit := { dr.unit with attention := Vector.replicate 4 (some .packReady) } } with ports := t.ports } := by
  obtain ⟨hframe, -⟩ := loadedState_spec (atMark s d n) d label
  dsimp only
  rw [atMark, onDrive_onDrive] at hframe
  exact hframe

end

/-- Settles O58: the encoding, the sector events of a label write by its step, and the load's last sector. -/
theorem labelRoundTrip : Obligations.LabelRoundTrip := by
  unfold Obligations.LabelRoundTrip
  refine ⟨fun m hs hg hn hfit hclash => ?_, fun d n read s r j h he hop hj => ⟨?_, ?_, ?_, ?_, ?_⟩,
    fun d n read s hp hm hs hstep hpass hsec => ?_⟩
  · refine ⟨length_padBlock ?_, length_entryBlock ?_, length_entryBlock ?_,
      labelRoundTrip_encoding m hs hg hn (fun e he => by cases e <;> exact hfit _ he) hclash⟩
    · simp [checkOctets]
    · simp
    · simp
      omega
  · obtain ⟨image, step, attempt, back⟩ := j
    intro hstep hid hn hfault
    obtain rfl : step = 0 := hstep
    exact label_step_zero h hop hj rfl hid hn hfault
  · obtain ⟨image, step, attempt, back⟩ := j
    intro hstep hid hpath
    obtain rfl | rfl : step = 1 ∨ step = 2 := hstep
    · exact label_step_release h hop hj (.inl rfl) rfl rfl hid hpath
    · exact label_step_release h hop hj (.inr rfl) rfl rfl hid hpath
  · obtain ⟨image, step, attempt, back⟩ := j
    intro hstep hread hn
    obtain rfl | rfl : step = 3 ∨ step = 4 := hstep
    · exact label_step_read h hop hj (.inl rfl) rfl hread hn
    · exact label_step_read h hop hj (.inr rfl) rfl hread hn
  · obtain ⟨image, step, attempt, back⟩ := j
    intro hstep hread hsame hpath
    obtain rfl : step = 5 := hstep
    exact label_step_done h he hop hj rfl hread hpath hsame
  · obtain ⟨image, step, attempt, back⟩ := j
    intro hstep hread hsame hlimit hpath
    obtain rfl : step = 5 := hstep
    have hexec := label_step_fails (n := n) (read := read) h he hop hj rfl hread hpath hlimit hsame
    exact ⟨_, hexec, postAll_frame _, fun q => postAll_port _ q⟩
  · intro dr found hread blocks label starts ready
    refine ⟨fun m hlabel => ?_, fun hlabel => ?_⟩
    · have hframe := loadedState_atMark (s := s) (d := d) (n := n) (label := some m)
      have hport := (loadedState_spec (atMark s d n) d (some m)).2
      have hlow : (!fewFree (some m)) = decide ¬(freeIndices (sortBy MapEntry.key m.entries)).length ≤ 8 :=
        decide_not.symm
      rw [hlow] at hframe
      refine ⟨_, sectorEvent_load (n := n) (read := read) hp hm hs hstep hpass hsec hread hlabel, hframe, fun q => ?_⟩
      rw [hport q]
      simp only [fewFree, decide_eq_true_eq]
      rfl
    · have hframe := loadedState_atMark (s := s) (d := d) (n := n) (label := none)
      have hport := (loadedState_spec (atMark s d n) d none).2
      rw [fewFree_none] at hframe
      refine ⟨_, sectorEvent_load (n := n) (read := read) hp hm hs hstep hpass hsec hread hlabel, hframe, fun q => ?_⟩
      rw [hport q, fewFree_none]
      rfl

end Sys2Proof.Proofs

/-! ### Reset, power-on and the clock (R18, R21, R31, R71) -/

namespace Sys2Proof.Proofs
open Sys2Proof Sys2Proof.Machine Sys2Proof.Laws

theorem reset_drive (d : Drive) : State.reset.drive d = DriveRec.initial := by
  simp [State.drive, State.reset]

/-- A port at power-on meets the invariant, its unit-base strap whatever it is (R68, R165). -/
theorem portRec_initial_holds (strap : Bool) (base : Nat) (hold : Bool) : (PortRec.initial strap base hold).holds := by
  refine ⟨rfl, ⟨?_, ?_⟩, ⟨?_, ?_, ?_⟩, ?_, ?_⟩ <;> simp [PortRec.initial, PortSettings.initial]

/-- Settles O6: every port is as `PortRec.initial` gives it, no drive has a pack, and the table is empty. -/
theorem resetMeetsInvariant : Obligations.ResetMeetsInvariant := by
  refine ⟨fun p => ?_, by decide, fun d q hq => ?_, by decide⟩
  · cases p <;> exact portRec_initial_holds _ _ _
  · rw [reset_drive] at hq
    cases hq

/-- Settles O2: the tick is one change made to every drive's record, which touches no other drive. -/
theorem idleStepIsOneMicrosecond : Obligations.IdleStepIsOneMicrosecond := by
  intro s hs
  have hstep : step s = s.live s.tick := by simp only [step, hs]
  refine ⟨fun hp => ?_, fun hp => ⟨s.tick, ?_, ?_⟩⟩
  · rw [hstep, live_unpowered _ hp]
  · rw [hstep, live_powered hp]
  · exact forDrives_onDrive (fun _ => DriveRec.tick)
      { s with gapTimer := tickTimer s.gapTimer, table := s.table.map Request.tick }

section
variable {s : State} {x : PowerOnSense} {d : Drive}

/-- The pack a spindle presents at power-on: the one standing there, none, or another (log entry 14). -/
def presented (x : SpindleSense) (old : Option Pack) : Option Pack :=
  match x.pack with
  | .same => old
  | .none => none
  | .seated q => some q

/-- A drive's record at power-on, with its spindle or without (R18, R19). -/
theorem powerOnDrive_eq (old : DriveRec) (x : SpindleSense) : powerOnDrive old x =
    if x.present = true then
      { DriveRec.initial with
        state := .stopped, doorClosed := x.doorClosed, writeProtect := x.writeProtect, writeFault := x.writeFault
        startStrap := x.startStrap, packSeated := (presented x old.pack).isSome, pack := presented x old.pack }
    else { DriveRec.initial with pack := old.pack } := rfl

theorem powerOnDrive_state (old : DriveRec) (x : SpindleSense) :
    (powerOnDrive old x).state = if x.present = true then .stopped else .absent := by
  rw [powerOnDrive_eq]
  split <;> rfl

theorem powerUp_drive (s : State) (x : PowerOnSense) (d : Drive) :
    (s.powerUp x).drive d = powerOnDrive (s.drive d) x.spindles[d] := by
  fin_cases d <;> rfl

theorem powerUp_port (s : State) (x : PowerOnSense) (p : Port) :
    (s.powerUp x).port p = PortRec.initial (s.port p).maintStrap (s.port p).baseStrap (ofPort x.hold p) := by
  cases p <;> rfl

/-- The drives found with their start strap on (R20). -/
def strapped (x : PowerOnSense) : List Drive := allDrives.filter fun d => x.spindles[d].startStrap && x.spindles[d].present

theorem powerUp_startList (s : State) (x : PowerOnSense) : (s.powerUp x).startList = strapped x := by
  refine List.filter_congr fun d _ => ?_
  have hdrive : (s.powerOnDrives x.spindles)[d] = powerOnDrive (s.drive d) x.spindles[d] := powerUp_drive s x d
  rw [hdrive, powerOnDrive_eq]
  by_cases h : x.spindles[d].present = true
  · rw [if_pos h, h]
    simp
  · rw [if_neg h, Bool.eq_false_of_not_eq_true h]
    simp [DriveRec.initial]

/-- A strapped drive may start when a pack is seated and its door closed (R21). -/
theorem mayStart_powerUp (h : d ∈ strapped x) : mayStart ((s.powerUp x).drive d) =
    ((presented x.spindles[d] (s.drive d).pack).isSome && x.spindles[d].doorClosed) := by
  have hpresent : x.spindles[d].present = true := by simp_all [strapped]
  rw [powerUp_drive, powerOnDrive_eq, if_pos hpresent, mayStart]
  simp

/-- The first strapped drive that may start (R21). -/
def firstToStart (s : State) (x : PowerOnSense) : Option Drive :=
  (strapped x).find? fun d => (presented x.spindles[d] (s.drive d).pack).isSome && x.spindles[d].doorClosed

theorem powerUp_idle (s : State) (x : PowerOnSense) : (s.powerUp x).idle := by
  refine ⟨rfl, rfl, fun d hfree => ?_⟩
  have hready : ((s.powerUp x).drive d).state = .ready := by simp_all [DriveRec.armFree]
  rw [powerUp_drive, powerOnDrive_state] at hready
  split at hready <;> cases hready

theorem powerUp_startable (s : State) (x : PowerOnSense) : (s.powerUp x).startable = firstToStart s x := by
  have hcount : startingCount (s.powerUp x) = 0 := by
    refine List.length_eq_zero_iff.2 (List.filter_eq_nil_iff.2 fun d _ => ?_)
    rw [powerUp_drive, powerOnDrive_state]
    split <;> simp
  rw [startable_eq, hcount, if_pos ⟨rfl, by decide⟩, powerUp_startList]
  exact List.find?_congr fun d hd => mayStart_powerUp hd

end

/-- Settles O7: nothing waits after power-on, so the event ends with the start of the first strapped drive that may start, if
there is one. -/
theorem powerOnValues : Obligations.PowerOnValues := by
  intro x s pack sensed strapped' first
  have hsensed : ∀ d, (s.powerUp x).drive d = sensed d := powerUp_drive s x
  have hfirst : firstToStart s x = first := rfl
  have hexec : exec (.powerOn x) s = .next (s.settle (s.powerUp x)) := rfl
  have hlist := powerUp_startList s x
  have hstart := powerUp_startable s x
  rw [hfirst] at hstart
  refine ⟨_, hexec, ?_⟩
  cases hf : first with
  | none =>
    rw [settle_quiet ⟨powerUp_idle s x, hstart.trans hf⟩]
    refine ⟨?_, powerUp_port s x, fun d => by simp [hsensed]⟩
    have hall : strapped'.filter (fun d => decide (none ≠ some d)) = (s.powerUp x).startList := by
      rw [hlist]
      exact List.filter_eq_self.2 fun _ _ => by simp
    rw [hall]
    rfl
  | some d =>
    rw [settle_start (powerUp_idle s x) (hstart.trans hf)]
    refine ⟨?_, powerUp_port s x, fun e => ?_⟩
    · have hrest : strapped'.filter (fun e => decide (some d ≠ some e)) = (s.powerUp x).startList.filter (· != d) := by
        rw [hlist]
        exact List.filter_congr fun e _ => by simp [bne, Bool.beq_eq_decide_eq, eq_comm]
      rw [hrest]
      rfl
    · by_cases he : e = d
      · subst he
        simp only [if_true, ← hsensed]
        exact drive_onDrive_same _
      · rw [if_neg (by simpa using Ne.symm he), ← hsensed]
        exact drive_onDrive_other _ he

end Sys2Proof.Proofs

/-! ### How a request ends (R55, R56, R63, R149, R175) -/

namespace Sys2Proof.Proofs
open Sys2Proof Sys2Proof.Machine Sys2Proof.Laws

section
variable {s t : State} {r q y : Request} {e : Ending} {n : Nat}

/-! #### What a request gives back (R26, R96, R100, R118) -/

theorem handed_eq (l : List Nat) : handed l = PathState.handed l := by cases l <;> rfl

theorem released_eq (a b : PathState) (l : List Nat) (n : Nat) :
    let rest := if a.holds n then l.tail else l
    released a b l n = (if a.holds n then PathState.handed l else a, if b.holds n then PathState.handed rest else b,
      if b.holds n then rest.tail else rest) := by
  unfold released
  cases a.holds n <;> cases b.holds n <;> simp [handed_eq]

/-- All that a request changes as it gives back what it held. -/
theorem givenBack_spec (s : State) (r : Request) :
    let x := released s.path0 s.path1 (s.preference.filter (· != r.rid)) r.rid
    ∃ v, givenBack s r = { s.onDrive r.drive (lost r.rid) with
        table := s.table.filter (·.rid != r.rid), path0 := x.1, path1 := x.2.1, preference := x.2.2, segments := v
        buffer := { s.buffer with
          holder := if s.buffer.holder = some r.rid then none else s.buffer.holder
          waiters := s.buffer.waiters.filter (· != r.rid) } }
      ∧ ∀ i : Fin 8, v[i] = if s.segments[i] = some r.rid then none else s.segments[i] := by
  have hpaths := releasePath_eq_released { s with preference := s.preference.filter (· != r.rid) } r.rid
  obtain ⟨v, hv, hseg⟩ := freeSegmentsOf_eq (s.leavePaths r.rid) r.rid
  have hleave : s.leavePaths r.rid = _ := hpaths
  refine ⟨v, ?_, fun i => by rw [hseg, hleave]⟩
  unfold givenBack
  dsimp only
  rw [← onDrive_lost, hv, hleave]
  rfl

theorem givenBack_table (s : State) (r : Request) : (givenBack s r).table = s.table.filter (·.rid != r.rid) := by
  obtain ⟨v, hv, -⟩ := givenBack_spec s r
  rw [hv]

theorem givenBack_port (s : State) (r : Request) (p : Port) : (givenBack s r).port p = s.port p := by
  obtain ⟨v, hv, -⟩ := givenBack_spec s r
  rw [hv]
  rfl

theorem givenBack_drive (s : State) (r : Request) (d : Drive) :
    (givenBack s r).drive d = if d = r.drive then lost r.rid (s.drive d) else s.drive d := by
  obtain ⟨v, hv, -⟩ := givenBack_spec s r
  rw [hv]
  show (s.onDrive r.drive (lost r.rid)).drive d = _
  by_cases hd : d = r.drive
  · subst hd
    rw [drive_onDrive_same, if_pos rfl]
  · rw [drive_onDrive_other _ hd, if_neg hd]

theorem givenBack_drive_keeps {α : Type} (g : DriveRec → α) (hg : ∀ n dr, g (lost n dr) = g dr) (s : State) (r : Request)
    (d : Drive) : g ((givenBack s r).drive d) = g (s.drive d) := by
  rw [givenBack_drive]
  split
  · exact hg _ _
  · rfl

theorem lost_keeps (n : Nat) (dr : DriveRec) : (lost n dr).state = dr.state ∧ (lost n dr).deferred = dr.deferred
    ∧ (lost n dr).recCounts = dr.recCounts ∧ (lost n dr).labelUpdate = dr.labelUpdate ∧ (lost n dr).packSeated = dr.packSeated
    ∧ (lost n dr).doorClosed = dr.doorClosed ∧ (lost n dr).unit = dr.unit ∧ (lost n dr).packLeft = dr.packLeft := by
  unfold lost DriveRec.loseOwner
  split <;> exact ⟨rfl, rfl, rfl, rfl, rfl, rfl, rfl, rfl⟩

/-- What is given back depends on no port and not on the record of the request itself. -/
theorem givenBack_congr (ht : t = { s with ports := t.ports, table := t.table })
    (htable : t.table.filter (·.rid != r.rid) = s.table.filter (·.rid != r.rid)) (hid : q.rid = r.rid)
    (hdrive : q.drive = r.drive) : givenBack t q = { givenBack s r with ports := t.ports } := by
  obtain ⟨P, T, rfl⟩ : ∃ P T, t = { s with ports := P, table := T } := ⟨_, _, ht⟩
  obtain ⟨v, hv, hseg⟩ := givenBack_spec { s with ports := P, table := T } q
  obtain ⟨w, hw, hseg'⟩ := givenBack_spec s r
  have hvw : v = w := Vector.ext fun i hi => by
    rw [hid] at hseg
    exact (hseg ⟨i, hi⟩).trans (hseg' ⟨i, hi⟩).symm
  rw [hv, hw, hvw, hid, hdrive]
  dsimp only at htable ⊢
  rw [htable]
  rfl

/-! #### What an ending tells before the request leaves (R63 steps 1 to 3) -/

/-- The state with an ending reported, the windows it meets told, and its marker's standing taken (R63, R55, R56, R175). -/
def toldEnding (s : State) (r : Request) (e : Ending) : State :=
  ((s.reportEnding r e .none).reportAfter r).markStanding r.port r.rid (if e.cls = .done then .endedDone else .endedOther)

/-- The report-after windows an ending meets: those that match, when the request has been arm owner (R175). -/
def windowsMet (s : State) (r : Request) : List (Fin 4 × Window × Nat) :=
  if r.reachedArm then s.matching .reportAfter r.port r.drive r.kind r.extent else []

/-- The record of a request whose ending is told: its window mark alone is new. -/
def marked (s : State) (r : Request) : Request := windowed r (s.matching .reportAfter r.port r.drive r.kind r.extent)

theorem marked_keeps (s : State) (r : Request) : (marked s r).rid = r.rid ∧ (marked s r).kind = r.kind
    ∧ (marked s r).drive = r.drive ∧ (marked s r).earlyEnded = r.earlyEnded ∧ (marked s r).pred = r.pred := by
  unfold marked windowed
  split <;> exact ⟨rfl, rfl, rfl, rfl, rfl⟩

theorem withRequest_self (h : s.entry r) : s.withRequest r = s := by
  have hsame : (s.table.map fun x => if x.rid = r.rid then r else x) = s.table := by
    refine (List.map_congr_left fun x hx => ?_).trans (List.map_id _)
    split
    · next hid => exact (h.2.1 x hx hid).symm
    · rfl
  show { s with table := _ } = s
  rw [hsame]

theorem windowsTold_frame (ms : List (Fin 4 × Window × Nat)) :
    windowsTold s r ms = { s with ports := (windowsTold s r ms).ports } := by
  unfold windowsTold
  induction ms generalizing s with
  | nil => rfl
  | cons m ms ih =>
    rw [List.foldl_cons, ih, post_eq]
    rfl

/-- Each port's record with the windows told: the notices of those it owns posted in order, reports and marker as they were. -/
theorem windowsTold_port (ms : List (Fin 4 × Window × Nat)) (p : Port) :
    ((windowsTold s r ms).port p).notices = (ms.filter (·.2.1.owner = p)).foldl
        (fun ns m => postInto ns .windowMatch (.window m.1) (.request r.port r.tag m.2.2)) (s.port p).notices
      ∧ ((windowsTold s r ms).port p).reports = (s.port p).reports
      ∧ ((windowsTold s r ms).port p).marker = (s.port p).marker := by
  unfold windowsTold
  induction ms generalizing s with
  | nil => exact ⟨rfl, rfl, rfl⟩
  | cons m ms ih =>
    obtain ⟨hnotices, hreports, hmarker⟩ :=
      ih (s := s.post m.2.1.owner .windowMatch (.window m.1) (.request r.port r.tag m.2.2))
    rw [List.foldl_cons, hnotices, hreports, hmarker, post_eq]
    by_cases hp : p = m.2.1.owner
    · subst hp
      rw [port_onPort_same, List.filter_cons_of_pos (by simp)]
      exact ⟨rfl, rfl, rfl⟩
    · rw [port_onPort_other _ hp, List.filter_cons_of_neg (by simpa using Ne.symm hp)]
      exact ⟨rfl, rfl, rfl⟩

theorem reportAfter_eq (h : s.entry r) : s.reportAfter r = windowsTold (s.withRequest (marked s r)) r (windowsMet s r) := by
  rw [reportAfter_entry h]
  unfold windowsMet marked
  dsimp only
  split
  · rfl
  · next harm =>
    rw [windowed, if_neg harm, withRequest_self h]
    rfl

/-- Telling an ending changes the ports, and in the table the request's own record. -/
theorem toldEnding_frame (h : s.entry r) (e : Ending) :
    toldEnding s r e = { s.withRequest (marked s r) with ports := (toldEnding s r e).ports } := by
  unfold toldEnding
  rw [reportAfter_eq (s := s.reportEnding r e .none) h, windowsTold_frame]
  rfl

theorem toldEnding_entry (h : s.entry r) (e : Ending) : (toldEnding s r e).entry (marked s r) := by
  obtain ⟨hid, hkind, -⟩ := marked_keeps s r
  rw [toldEnding_frame h]
  exact entry_withRequest (q := marked s r) h hid (hkind ▸ h.2.2)

/-- The report of an ending joins its port's queue, its marker takes the standing, the owners of the windows are told. -/
theorem toldEnding_port (h : s.entry r) (e : Ending) (p : Port) :
    ((toldEnding s r e).port p).reports = (s.port p).reports ++ (if p = r.port then [endingReport s r e .none] else [])
      ∧ ((toldEnding s r e).port p).marker = (if p = r.port then (s.port p).marker.map fun m =>
            if m.member = some r.rid then { m with standing := if e.cls = .done then .endedDone else .endedOther } else m
          else (s.port p).marker)
      ∧ ((toldEnding s r e).port p).notices = ((windowsMet s r).filter (·.2.1.owner = p)).foldl
          (fun ns m => postInto ns .windowMatch (.window m.1) (.request r.port r.tag m.2.2)) (s.port p).notices := by
  have hafter := reportAfter_eq (s := s.reportEnding r e .none) h
  obtain ⟨hnotices, hreports, hmarker⟩ :=
    windowsTold_port (s := (s.reportEnding r e .none).withRequest (marked (s.reportEnding r e .none) r)) (r := r)
      (windowsMet s r) p
  have hmet : windowsMet (s.reportEnding r e .none) r = windowsMet s r := rfl
  unfold toldEnding
  rw [hafter, hmet]
  generalize windowsTold _ r (windowsMet s r) = t at *
  rw [withRequest_port] at hnotices hreports hmarker
  by_cases hp : p = r.port
  · subst hp
    simp only [State.markStanding, port_onPort_same, hnotices, hreports, hmarker, State.reportEnding, State.queueReport,
      if_true]
    exact ⟨trivial, trivial, trivial⟩
  · have hother : (s.reportEnding r e .none).port p = s.port p := port_onPort_other _ hp
    rw [State.markStanding, port_onPort_other _ hp, hnotices, hreports, hmarker, hother, if_neg hp, if_neg hp]
    exact ⟨by simp, rfl, rfl⟩

/-- Where no window is met, that is all a port sees of the ending. -/
theorem toldEnding_port_unmet (h : s.entry r) (hm : windowsMet s r = []) (e : Ending) (p : Port) :
    (toldEnding s r e).port p = if p = r.port then
      { s.port p with
        reports := (s.port p).reports ++ [endingReport s r e .none]
        marker := (s.port p).marker.map fun m =>
          if m.member = some r.rid then { m with standing := if e.cls = .done then .endedDone else .endedOther } else m }
      else s.port p := by
  have hmet : windowsMet (s.reportEnding r e .none) r = [] := hm
  have htold : ∀ x : Port, ((s.reportEnding r e .none).reportAfter r).port x = (s.reportEnding r e .none).port x := fun x => by
    rw [reportAfter_eq (s := s.reportEnding r e .none) h, hmet]
    rfl
  unfold toldEnding
  by_cases hp : p = r.port
  · subst hp
    rw [if_pos rfl, State.markStanding, port_onPort_same, htold, State.reportEnding, State.queueReport, port_onPort_same]
  · rw [if_neg hp, State.markStanding, port_onPort_other _ hp, htold]
    exact port_onPort_other _ hp

/-- A request whose ending is told leaves the table and gives back what it held. -/
theorem toldEnding_leaves (h : s.entry r) (he : r.earlyEnded = false) (e : Ending) :
    (toldEnding s r e).leaveTable r.rid = { givenBack s r with ports := (toldEnding s r e).ports } := by
  obtain ⟨hid, hkind, hdrive, hearly, -⟩ := marked_keeps s r
  have hframe := toldEnding_frame h e
  have hentry := toldEnding_entry h e
  generalize toldEnding s r e = t at *
  have hleave := leaveTable_unfolded (request?_entry hentry) hentry.2.2 (.inl (hearly.trans he))
  rw [hid] at hleave
  have hrest : t = { s with ports := t.ports, table := t.table } := by
    have htable : t.table = (s.withRequest (marked s r)).table := by rw [hframe]
    rw [htable]
    exact hframe
  rw [hleave]
  refine givenBack_congr hrest ?_ hid hdrive
  have htable := filter_map_rid (l := s.table) (r := marked s r)
  rw [hid] at htable
  rw [hframe]
  show List.filter _ (s.table.map fun q => if q.rid = (marked s r).rid then marked s r else q) = _
  rw [hid, htable]

/-! #### The ending of a reported request (R63) -/

theorem conclude_done (h : s.single r) (hc : e.cls = .done) :
    s.conclude r.rid e = State.releaseBehind { givenBack s r with ports := (toldEnding s r e).ports } r.rid := by
  obtain ⟨hentry, he, hd, -⟩ := h
  have htold : s.reportDone r e .none = toldEnding s r e := by
    rw [toldEnding, if_pos hc]
    rfl
  simp only [State.conclude, request?_entry hentry, he, hd, hentry.2.2, hc, Bool.false_eq_true, if_false, if_true, or_self,
    State.endDone, htold, toldEnding_leaves hentry he]

theorem conclude_broken (h : s.single r) (hc : e.cls ≠ .done) :
    s.conclude r.rid e =
      ((toldEnding s r e).breakChain (toldEnding s r e).table.length r.rid).leaveTable r.rid := by
  obtain ⟨hentry, he, hd, -⟩ := h
  simp only [State.conclude, request?_entry hentry, he, hd, hentry.2.2, hc, Bool.false_eq_true, if_false, or_self,
    State.endBroken, toldEnding]
  rfl

/-- The members of the table as an ending is told: the request's own record and the others, chain links as they were. -/
theorem toldEnding_pred (h : s.entry r) (hp : ∀ q ∈ s.table, q.pred ≠ some n) (e : Ending) :
    ∀ q ∈ (toldEnding s r e).table, q.pred ≠ some n := by
  rw [toldEnding_frame h]
  exact table_pred hp h.1 (marked_keeps s r).2.2.2.2

/-- A request with no successor: its ending is told, and it gives back what it held (R63). -/
theorem conclude_unchained (h : s.single r) (hp : ∀ q ∈ s.table, q.pred ≠ some r.rid) (e : Ending) :
    s.conclude r.rid e = { givenBack s r with ports := (toldEnding s r e).ports } := by
  by_cases hc : e.cls = .done
  · have htable := givenBack_table s r
    rw [conclude_done h hc]
    generalize givenBack s r = t at *
    refine releaseChain_none (fun q hq => hp q ?_) _
    have hq : q ∈ t.table := hq
    rw [htable] at hq
    exact (List.mem_filter.1 hq).1
  · rw [conclude_broken h hc, breakChain_none (toldEnding_pred h.1 hp e), toldEnding_leaves h.1 h.2.1]

/-- A request ended DONE, its successor still waiting. -/
theorem concludeDone_single (h : s.single r) : s.concludeDone r.rid =
    { givenBack s r with ports := (toldEnding s r (Ending.make .done .none)).ports } := by
  obtain ⟨hentry, he, hd, -⟩ := h
  rw [← toldEnding_leaves hentry he]
  simp only [State.concludeDone, request?_entry hentry, he, hd, hentry.2.2, Bool.false_eq_true, or_self, if_false]
  rfl

/-- A DONE ending is the request's own, and then the release of its chain (R55). -/
theorem conclude_eq_released (h : s.single r) :
    s.conclude r.rid (Ending.make .done .none) = (s.concludeDone r.rid).releaseBehind r.rid := by
  rw [conclude_done h rfl, concludeDone_single h]

/-! #### A successor behind an ended request (R55, R56) -/

theorem successor_of_unique (hy : y ∈ s.table) (hw : y.state = .waitingChain) (hp : y.pred = some n)
    (hone : ∀ q ∈ s.table, q.pred = some n → q = y) : s.successor? n = some y :=
  find?_eq_some_of_unique hy (by simp [hw, hp]) fun q hq hqp => hone q hq (by simp_all)

/-- The successor of a request ended DONE is queued with chain precedence (R55). -/
theorem releaseChain_queued (hy : s.entry y) (hs : s.successor? n = some y) (harm : y.kind.armUsing = true)
    (hcount : y.kind.isData = true → y.count ≠ 0) (hready : (s.drive y.drive).state = .ready) (k : Nat) :
    s.releaseChain (k + 1) n = s.withRequest { y with state := .queued, chainPrecedence := true } := by
  have hdata : ¬(y.kind.isData = true ∧ y.count = 0) := fun h => hcount h.1 h.2
  simp only [State.releaseChain, hs, hdata, harm, hready, DriveState.turnsAway, if_false, if_true]
  exact putRequest_table (r := { y with state := .queued, chainPrecedence := true }) hy.2.2

/-- The only member of a broken chain ends NOT_RUN behind the request it waited for (R56). -/
theorem breakChain_single (hy : s.entry y) (he : y.earlyEnded = false) (hs : s.successor? n = some y)
    (hp : ∀ q ∈ s.table, q.pred ≠ some y.rid) (k : Nat) :
    s.breakChain (k + 1) n = givenBack ((s.reportEnding y (Ending.make .notRun .chainBroken) .none).markStanding
      y.port y.rid .endedOther) y := by
  have hentry : ((s.reportEnding y (Ending.make .notRun .chainBroken) .none).markStanding y.port y.rid .endedOther).entry y :=
    hy
  have hstep : chainStep s y = _ := leaveTable_unfolded (request?_entry hentry) hy.2.2 (.inl he)
  rw [breakChain_some hs, hstep, breakChain_end]
  refine successor_none fun q hq => hp q ?_
  rw [givenBack_table] at hq
  exact (List.mem_filter.1 hq).1

/-! #### Each clause of an ending -/

theorem plain_single (h : s.plain r) : s.single r := ⟨h.1, h.2.1, h.2.2.1, h.2.2.2.1⟩

theorem plain_unmet (h : s.plain r) : windowsMet s r = [] := by
  unfold windowsMet
  split
  · next harm => exact h.2.2.2.2.2 harm
  · rfl

theorem conclude_plain_eq (h : s.plain r) (e : Ending) :
    s.conclude r.rid e = { givenBack s r with ports := (toldEnding s r e).ports } :=
  conclude_unchained (plain_single h) h.2.2.2.2.1 e

/-- An ending leaves each drive's record as it was, or without its owner. -/
theorem conclude_plain_drive (h : s.plain r) (e : Ending) (d : Drive) :
    (s.conclude r.rid e).drive d = if d = r.drive then lost r.rid (s.drive d) else s.drive d := by
  have hdrive := givenBack_drive s r d
  rw [conclude_plain_eq h]
  generalize givenBack s r = t at *
  exact hdrive

/-- The successor of a request that ends DONE is queued behind its report (R55). -/
theorem conclude_done_successor (h : s.single r) (hy : s.entry y) (hne : y.rid ≠ r.rid) (hw : y.state = .waitingChain)
    (hp : y.pred = some r.rid) (hone : ∀ q ∈ s.table, q.pred = some r.rid → q = y) (hc : e.cls = .done)
    (harm : y.kind.armUsing = true) (hcount : y.kind.isData = true → y.count ≠ 0)
    (hready : (s.drive y.drive).state = .ready) :
    s.conclude r.rid e = State.withRequest { givenBack s r with ports := (toldEnding s r e).ports }
      { y with state := .queued, chainPrecedence := true } := by
  have htable := givenBack_table s r
  have hstate : ((givenBack s r).drive y.drive).state = .ready :=
    (givenBack_drive_keeps (·.state) (fun n dr => (lost_keeps n dr).1) s r y.drive).trans hready
  rw [conclude_done h hc, State.releaseBehind]
  generalize givenBack s r = t at *
  have hmem : y ∈ t.table := by
    rw [htable]
    exact List.mem_filter.2 ⟨hy.1, by simpa using hne⟩
  have hsub : ∀ q ∈ t.table, q ∈ s.table := fun q hq => by
    rw [htable] at hq
    exact (List.mem_filter.1 hq).1
  obtain ⟨k, hk⟩ := Nat.exists_eq_succ_of_ne_zero (List.ne_nil_of_mem hmem |> mt List.length_eq_zero_iff.1)
  have hsucc := successor_of_unique (s := { t with ports := (toldEnding s r e).ports }) hmem hw hp
    fun q hq => hone q (hsub q hq)
  have hentry : ({ t with ports := (toldEnding s r e).ports } : State).entry y :=
    ⟨hmem, fun q hq => hy.2.1 q (hsub q hq), hy.2.2⟩
  have hrelease := releaseChain_queued hentry hsucc harm hcount hstate k
  rw [← Nat.succ_eq_add_one, ← hk] at hrelease
  exact hrelease

/-- The successor of a request that ends in another class ends NOT_RUN behind its report (R56). -/
theorem conclude_broken_successor (h : s.single r) (hy : s.entry y) (hne : y.rid ≠ r.rid) (hw : y.state = .waitingChain)
    (hp : y.pred = some r.rid) (hone : ∀ q ∈ s.table, q.pred = some r.rid → q = y) (hc : e.cls ≠ .done)
    (hyp : ∀ q ∈ s.table, q.pred ≠ some y.rid) (hye : y.earlyEnded = false) :
    (s.conclude r.rid e).table = s.table.filter (fun q => q.rid != r.rid && q.rid != y.rid)
      ∧ ∀ p, ((s.conclude r.rid e).port p).reports = ((toldEnding s r e).port p).reports ++
          if p = y.port then [endingReport s y (Ending.make .notRun .chainBroken) .none] else [] := by
  obtain ⟨hid, hkind, hdrive, hearly, hpred⟩ := marked_keeps s r
  have hframe := toldEnding_frame h.1 e
  have hentry := toldEnding_entry h.1 e
  have hpreds := toldEnding_pred h.1 hyp e
  rw [conclude_broken h hc]
  generalize toldEnding s r e = t at *
  have htable : t.table = s.table.map fun q => if q.rid = r.rid then marked s r else q := by
    rw [hframe, ← hid]
    rfl
  have hmem : y ∈ t.table := by
    rw [htable]
    exact List.mem_map.2 ⟨y, hy.1, if_neg hne⟩
  have hback : ∀ q ∈ t.table, q.rid ≠ r.rid → q ∈ s.table := fun q hq hqr => by
    rw [htable] at hq
    obtain ⟨x, hx, rfl⟩ := List.mem_map.1 hq
    by_cases hxr : x.rid = r.rid
    · rw [if_pos hxr, hid] at hqr
      exact absurd rfl hqr
    · rwa [if_neg hxr]
  have hyentry : t.entry y := ⟨hmem, fun q hq hqy => hy.2.1 q (hback q hq (hqy ▸ hne)) hqy, hy.2.2⟩
  have hrpred : r.pred ≠ some r.rid := fun hr => hne (by rw [← hone r h.1.1 hr])
  have hsucc : t.successor? r.rid = some y := successor_of_unique hmem hw hp fun q hq hqp => by
    by_cases hqr : q.rid = r.rid
    · rw [hentry.2.1 q hq (hqr.trans hid.symm), hpred] at hqp
      exact absurd hqp hrpred
    · exact hone q (hback q hq hqr) hqp
  obtain ⟨k, hk⟩ := Nat.exists_eq_succ_of_ne_zero (List.ne_nil_of_mem hmem |> mt List.length_eq_zero_iff.1)
  rw [hk, breakChain_single hyentry hye hsucc hpreds]
  have hrep : endingReport t y (Ending.make .notRun .chainBroken) .none = endingReport s y (Ending.make .notRun .chainBroken)
      .none := by
    have hrecs : ∀ p d, t.recoveredCount p d = s.recoveredCount p d := fun p d => by
      rw [hframe]
      rfl
    simp only [endingReport, hrecs]
  have hports : ∀ p, (((t.reportEnding y (Ending.make .notRun .chainBroken) .none).markStanding y.port y.rid .endedOther).port
      p).reports = (t.port p).reports ++
        if p = y.port then [endingReport s y (Ending.make .notRun .chainBroken) .none] else [] := fun p => by
    rw [← hrep]
    by_cases hpy : p = y.port
    · subst hpy
      rw [if_pos rfl, State.markStanding, port_onPort_same, State.reportEnding, State.queueReport, port_onPort_same]
    · rw [if_neg hpy, State.markStanding, port_onPort_other _ hpy, State.reportEnding, State.queueReport,
        port_onPort_other _ hpy, List.append_nil]
  have hentry' : ((t.reportEnding y (Ending.make .notRun .chainBroken) .none).markStanding y.port y.rid .endedOther).entry
      (marked s r) := hentry
  have htable' : ((t.reportEnding y (Ending.make .notRun .chainBroken) .none).markStanding y.port y.rid .endedOther).table =
      t.table := rfl
  generalize (t.reportEnding y _ .none).markStanding y.port y.rid .endedOther = u at *
  have hgone : (givenBack u y).entry (marked s r) := by
    refine ⟨?_, fun q hq => hentry'.2.1 q ?_, hentry.2.2⟩
    · rw [givenBack_table]
      exact List.mem_filter.2 ⟨hentry'.1, by simpa [hid] using hne.symm⟩
    · rw [givenBack_table] at hq
      exact (List.mem_filter.1 hq).1
  have hleave := leaveTable_unfolded (request?_entry hgone) hgone.2.2 (.inl (hearly.trans h.2.1))
  rw [hid] at hleave
  rw [hleave]
  refine ⟨?_, fun p => by rw [givenBack_port, givenBack_port, hports]⟩
  have hfilter := filter_map_rid (l := s.table) (r := marked s r)
  rw [hid] at hfilter
  rw [givenBack_table, givenBack_table, htable', htable, hid, List.filter_comm, hfilter, List.filter_filter]
  simp only [Bool.and_comm]

/-- An early-ended write that has succeeded leaves without a second report (R64). -/
theorem conclude_early_done (h : s.entry r) (he : r.earlyEnded = true) (hf : r.failure = none) (hc : e.cls = .done) :
    s.conclude r.rid e = givenBack s r := by
  simp only [State.conclude, request?_entry h, he, hc, if_true]
  exact leaveTable_unfolded (request?_entry h) h.2.2 (.inr hf)

/-- One that has failed is folded into the deferred record of its port as it leaves (R149, R150). -/
theorem conclude_early_failed (h : s.entry r) (he : r.earlyEnded = true) (hc : e.cls ≠ .done) :
    s.conclude r.rid e = givenBack ((s.withRequest (carrying r e)).fold (carrying r e) e) (carrying r e) := by
  have hentry : (s.withRequest (carrying r e)).entry (carrying r e) := entry_withRequest (q := carrying r e) h rfl h.2.2
  simp only [State.conclude, request?_entry h]
  rw [if_pos he, if_neg hc]
  show (s.putRequest (carrying r e)).leaveTable r.rid = _
  rw [putRequest_table (r := carrying r e) h.2.2]
  exact leaveTable_early (r := carrying r e) (request?_entry hentry) h.2.2 he rfl

/-- What such a failure leaves of the table, the drive's deferred records and the ports. -/
theorem conclude_early_failed_spec (h : s.entry r) (he : r.earlyEnded = true) (hc : e.cls ≠ .done) :
    let t := s.conclude r.rid e
    let old := ofPort (s.drive r.drive).deferred r.port
    t.table = s.table.filter (·.rid != r.rid)
      ∧ (∀ p, ofPort (t.drive r.drive).deferred p =
          if p = r.port then some (r.foldInto e old) else ofPort (s.drive r.drive).deferred p)
      ∧ ∀ p, t.port p =
          if p = r.port ∧ old = none then (s.port p).posted .deferredError (.drive r.drive) .none else s.port p := by
  obtain ⟨hshed, hdef, hport⟩ := fold_spec (s.withRequest (carrying r e)) (carrying r e) e
  dsimp only
  rw [conclude_early_failed h he hc]
  refine ⟨?_, fun p => ?_, fun p => ?_⟩
  · rw [givenBack_table, hshed.table, tableWithout_nil]
    exact filter_map_rid (r := carrying r e)
  · have hkeeps := givenBack_drive_keeps (·.deferred) (fun n dr => (lost_keeps n dr).2.1)
      ((s.withRequest (carrying r e)).fold (carrying r e) e) (carrying r e) r.drive
    have hfold := hdef p
    rw [hkeeps]
    by_cases hp : p = r.port
    · subst hp
      exact hfold
    · rw [if_neg hp]
      exact hfold.trans (if_neg hp)
  · have hfold := hport p
    rw [givenBack_port, hfold]
    by_cases hp : p = r.port
    · subst hp
      exact if_congr (and_congr Iff.rfl Option.isNone_iff_eq_none) rfl rfl
    · exact (if_neg fun hand => hp hand.1).trans (if_neg fun hand => hp hand.1).symm

/-! #### Endings together (log entry 43) -/

theorem concludeDone_table (h : s.single r) : (s.concludeDone r.rid).table = s.table.filter (·.rid != r.rid) := by
  have htable := givenBack_table s r
  rw [concludeDone_single h]
  generalize givenBack s r = t at *
  exact htable

theorem concludeDone_recoveredCount (h : s.single r) (p : Port) (d : Drive) :
    (s.concludeDone r.rid).recoveredCount p d = s.recoveredCount p d := by
  have hkeeps := givenBack_drive_keeps (·.recCounts) (fun n dr => (lost_keeps n dr).2.2.1) s r d
  rw [concludeDone_single h]
  generalize givenBack s r = t at *
  exact congrArg (fun v => (ofPort v p).count) hkeeps

theorem concludeDone_reports (h : s.single r) (p : Port) : ((s.concludeDone r.rid).port p).reports =
    (s.port p).reports ++ if p = r.port then [endingReport s r (Ending.make .done .none) .none] else [] := by
  have hreports := (toldEnding_port h.1 (Ending.make .done .none) p).1
  rw [concludeDone_single h]
  generalize givenBack s r = t
  exact hreports

theorem single_concludeDone (h : s.single r) (hq : s.single q) (hne : q.rid ≠ r.rid) : (s.concludeDone r.rid).single q := by
  obtain ⟨⟨hmem, hone, hkind⟩, hrest⟩ := hq
  have htable := concludeDone_table h
  refine ⟨⟨?_, fun x hx => hone x ?_, hkind⟩, hrest⟩
  · rw [htable]
    exact List.mem_filter.2 ⟨hmem, by simpa using hne⟩
  · rw [htable] at hx
    exact (List.mem_filter.1 hx).1

/-- Requests that one event ends DONE: their entries gone, their reports in the order given. -/
theorem foldl_concludeDone (rs : List Request) (h : ∀ r ∈ rs, s.single r) (hn : (rs.map (·.rid)).Nodup) :
    let t := rs.foldl (fun v r => v.concludeDone r.rid) s
    t.table = s.table.filter (fun q => decide (q.rid ∉ rs.map (·.rid)))
      ∧ ∀ p : Port, (t.port p).reports = (s.port p).reports ++
        (rs.filter fun r => decide (r.port = p)).map fun r => endingReport s r (Ending.make .done .none) .none := by
  induction rs generalizing s with
  | nil => simp
  | cons r rs ih =>
    obtain ⟨hnew, hn⟩ := List.nodup_cons.1 hn
    have hr := h r (by simp)
    obtain ⟨htable, hreports⟩ := ih (s := s.concludeDone r.rid)
      (fun q hq => single_concludeDone hr (h q (by simp [hq])) fun hid => hnew (List.mem_map.2 ⟨q, hq, hid⟩)) hn
    refine ⟨?_, fun p => ?_⟩
    · rw [List.foldl_cons, htable, concludeDone_table hr, List.filter_filter]
      refine List.filter_congr fun q _ => ?_
      simp only [List.map_cons, List.mem_cons, not_or, bne, Bool.beq_eq_decide_eq, Bool.decide_and, Bool.and_comm, decide_not]
    · have hsame : ∀ q, endingReport (s.concludeDone r.rid) q (Ending.make .done .none) .none =
          endingReport s q (Ending.make .done .none) .none := fun q => by
        simp only [endingReport, concludeDone_recoveredCount hr]
      simp only [List.foldl_cons, hreports, concludeDone_reports hr, hsame, List.append_assoc]
      congr 1
      by_cases hp : p = r.port
      · subst hp
        simp
      · simp [hp, Ne.symm hp]

end

/-- Settles O38: each clause by the lemma of its ending. -/
theorem endingReturnsAll : Obligations.EndingReturnsAll := by
  refine ⟨fun s r e h => ?_, fun s r y e h hy hne hport hw hp hone hm => ?_, fun s r e h hp harm => ?_,
    fun s r e h he hf => ?_, fun s r h => conclude_eq_released h, fun s rs h hn => ?_⟩
  · intro t pref rest
    obtain ⟨v, hv, hseg⟩ := givenBack_spec s r
    have hport := toldEnding_port_unmet h.1 (plain_unmet h) e
    have hdrive := conclude_plain_drive h e
    have heq : t = { givenBack s r with ports := (toldEnding s r e).ports } := conclude_plain_eq h e
    rw [hv, released_eq] at heq
    refine ⟨?_, fun q => ?_, fun d => ?_, fun i => ?_⟩
    · rw [heq]
      rfl
    · rw [← hport q, heq]
      rfl
    · rw [hdrive]
      unfold lost DriveRec.loseOwner
      by_cases hd : d = r.drive
      · rw [if_pos hd]
        simp only [hd, true_and]
        split
        · cases (s.drive r.drive).arm <;> rfl
        · rfl
      · rw [if_neg hd, if_neg fun hand => hd hand.1]
    · rw [← hseg i, heq]
  · intro t
    have hunmet : windowsMet s r = [] := by
      unfold windowsMet
      split
      · next harm => exact hm harm
      · rfl
    have hreports : ∀ q, ((toldEnding s r e).port q).reports =
        (s.port q).reports ++ if q = r.port then [endingReport s r e .none] else [] := fun q => (toldEnding_port h.1 e q).1
    refine ⟨fun hc harm hcount hready => ?_, fun hc hyp hye => ?_⟩
    · have htable := givenBack_table s r
      have heq : t = _ := conclude_done_successor h hy hne hw hp hone hc harm hcount hready
      rw [heq]
      generalize givenBack s r = u at *
      exact ⟨by rw [← htable]; rfl, hreports⟩
    · obtain ⟨htable, hends⟩ := conclude_broken_successor h hy hne hw hp hone hc hyp hye
      refine ⟨htable, fun q => ?_⟩
      rw [hends, hreports, hport, List.append_assoc]
      split <;> rfl
  · intro ms q
    have hmet : windowsMet s r = ms := if_pos harm
    have hnotices := (toldEnding_port h.1 e q).2.2
    rw [conclude_unchained h hp, ← hmet]
    generalize givenBack s r = t
    exact hnotices
  · intro t
    by_cases hc : e.cls = .done
    · have heq : t = givenBack s r := conclude_early_done h he hf hc
      rw [heq]
      refine ⟨givenBack_table s r, fun q => by rw [givenBack_port]; exact ⟨rfl, rfl⟩, fun _ => ⟨?_, givenBack_port s r⟩,
        fun hne => absurd hc hne⟩
      exact givenBack_drive_keeps (·.deferred) (fun n dr => (lost_keeps n dr).2.1) s r r.drive
    · obtain ⟨htable, hdef, hport⟩ := conclude_early_failed_spec h he hc
      refine ⟨htable, fun q => ?_, fun hdone => absurd hdone hc, fun _ => ⟨hdef, hport⟩⟩
      rw [hport]
      split <;> exact ⟨rfl, rfl⟩
  · intro t
    have hfold : ∀ (f : State → Nat → State) (v : State), (rs.map (·.rid)).foldl f v = rs.foldl (fun v r => f v r.rid) v :=
      fun f v => List.foldl_map
    refine ⟨?_, foldl_concludeDone rs (fun r hr => (h r hr).1) hn⟩
    rw [State.endTogether, hfold, hfold]

end Sys2Proof.Proofs

/-! ### Starts, stops and movements that end by event (R21 to R29, R37, R40) -/

namespace Sys2Proof.Proofs
open Sys2Proof Sys2Proof.Machine Sys2Proof.Laws

section
variable {s t : State} {d : Drive} {r q : Request} {e : Ending} {f : DriveRec → DriveRec} {reason : AttnReason}

/-! #### What keeps a state idle or quiet -/

/-- A drive with an empty queue may get a free arm and leave an idle state idle. -/
theorem idle_onDrive_unqueued (h : s.idle) (hl : (f (s.drive d)).labelUpdate = (s.drive d).labelUpdate)
    (hq : s.queue d = []) : (s.onDrive d f).idle := by
  refine ⟨h.1, (settled_congr rfl).trans h.2.1, fun x hx => ?_⟩
  have hsame : (s.onDrive d f).queue x = s.queue x := queue_congr rfl (onDrive_labelUpdate hl x)
  rw [hsame]
  by_cases hxd : x = d
  · rw [hxd, hq]
  · rw [drive_onDrive_other f hxd] at hx
    exact h.2.2 x hx

/-- After the ending of a request that no SYNCHRONIZE awaits, of a drive that is not READY or queues nothing, nothing follows
where nothing followed. -/
theorem quiet_conclude_at (hq : s.quiet) (h : s.plain r) (he : r.earlyEffective = false)
    (hd : (s.drive r.drive).state ≠ .ready ∨ s.queue r.drive = []) : (s.conclude r.rid e).quiet := by
  have hframe := conclude_frame (e := e) h
  have hdrive := conclude_plain_drive h e
  generalize s.conclude r.rid e = t at *
  have htable : t.table = s.table.filter (·.rid != r.rid) := by rw [hframe]
  obtain ⟨⟨hwait, hsettled, hqueue⟩, hstart⟩ := hq
  have hkeeps : ∀ x, (t.drive x).state = (s.drive x).state ∧ (t.drive x).labelUpdate = (s.drive x).labelUpdate
      ∧ (t.drive x).packSeated = (s.drive x).packSeated ∧ (t.drive x).doorClosed = (s.drive x).doorClosed := fun x => by
    rw [hdrive]
    obtain ⟨h1, -, -, h2, h3, h4, -⟩ := lost_keeps r.rid (s.drive x)
    split
    · exact ⟨h1, h2, h3, h4⟩
    · exact ⟨rfl, rfl, rfl, rfl⟩
  refine ⟨⟨?_, settled_filter htable hsettled h.1.2.1 he, fun x hx => ?_⟩, ?_⟩
  · rw [hframe]
    simp [hwait]
  · refine queue_filter htable (hkeeps x).2.1 ?_
    by_cases hxd : x = r.drive
    · subst hxd
      refine hd.resolve_left fun hne => hne ?_
      rw [← (hkeeps _).1]
      simp only [DriveRec.armFree, Bool.and_eq_true, decide_eq_true_eq] at hx
      exact hx.1.1
    · rw [hdrive, if_neg hxd] at hx
      exact hqueue x hx
  · rw [startable_congr (s := s) (by rw [hframe]; rfl) (by rw [hframe]; rfl)
      fun x => ⟨(hkeeps x).1, (hkeeps x).2.2⟩, hstart]

/-- A drive's record replaced by one that lets nothing be chosen, started or awaited leaves a quiet state quiet. -/
theorem quiet_onDrive_busy (h : s.quiet) (hl : (f (s.drive d)).labelUpdate = (s.drive d).labelUpdate)
    (hf : (f (s.drive d)).armFree = false) (hs : (f (s.drive d)).state = (s.drive d).state)
    (hpack : (f (s.drive d)).packSeated = (s.drive d).packSeated) (hdoor : (f (s.drive d)).doorClosed = (s.drive d).doorClosed) :
    (s.onDrive d f).quiet :=
  quiet_onDrive h hl (fun ha => by rw [hf] at ha; cases ha) (by rw [hs]) fun _ hm => by
    unfold mayStart at hm ⊢
    rwa [hs, hpack, hdoor] at hm

/-- Nor does one that frees the arm of a drive that queues nothing. -/
theorem quiet_onDrive_unqueued (h : s.quiet) (hl : (f (s.drive d)).labelUpdate = (s.drive d).labelUpdate)
    (hq : s.queue d = []) (hs : (f (s.drive d)).state = (s.drive d).state)
    (hpack : (f (s.drive d)).packSeated = (s.drive d).packSeated) (hdoor : (f (s.drive d)).doorClosed = (s.drive d).doorClosed) :
    (s.onDrive d f).quiet :=
  ⟨idle_onDrive_unqueued h.1 hl hq, startable_onDrive h.2 (by rw [hs]) fun _ hm => by
    unfold mayStart at hm ⊢
    rwa [hs, hpack, hdoor] at hm⟩

end

/-! #### The start gap (R21) -/

/-- Settles O45: the gate open, the head of the list starts, or there is none to start. -/
theorem startGapExpires : Obligations.StartGapExpires := by
  intro s hp hg hidle
  have hexec : exec .startGapExpiry s = .next (s.close { s with gapTimer := none, gateOpen := true }) := by
    show execStartGapExpiry s = _
    simp [execStartGapExpiry, live_powered hp, Option.isSome_iff_ne_none.2 hg]
  have hopen : ({ s with gapTimer := none, gateOpen := true } : State).idle := hidle
  refine ⟨fun hnil => ?_, fun d rest hlist hout hs hpack hdoor hcount => ?_⟩
  · rw [hexec, close_quiet ⟨hopen, startable_nil hnil⟩]
  · have hstart : ({ s with gapTimer := none, gateOpen := true } : State).startable = some d := by
      have hcan : mayStart (s.drive d) = true := by simp [mayStart, hs, hpack, hdoor]
      rw [startable_eq, if_pos ⟨rfl, hcount⟩]
      show s.startList.find? (fun e => mayStart (s.drive e)) = some d
      rw [hlist, List.find?_cons, hcan]
    have hrest : s.startList.filter (· != d) = rest := by
      rw [hlist, List.filter_cons_of_neg (by simp)]
      exact List.filter_eq_self.2 fun e he => by simpa using ne_of_mem_of_not_mem he hout
    rw [hexec, close_start hopen hstart]
    simp only [State.beginStartOf, hrest]
    rfl

/-! #### A start that ends (R22, R24, R38) -/

/-- The fault of an unused drive faults its record and posts DRIVE_FAULTED, and nothing else (R38). -/
theorem faultDrive_unused {s : State} {d : Drive} (h : s.unused d) (k : FaultKind) : s.faultDrive d k none =
    (s.onDrive d (faulted k (s.drive d).curCyl (s.drive d).tgtCyl none)).postAll .driveFaulted d := by
  obtain ⟨htable, howner, hlabel⟩ := h
  have hempty : ∀ f, (s.onDrive d f).fanOut d = [] := fun f => by
    simp only [State.fanOut, List.map_eq_nil_iff, List.filter_eq_nil_iff]
    exact fun q hq => by simp [htable q hq]
  have hfan : ∀ f, fannedFrom s d f faultEnds (Ending.make .ended .driveFault) = s.onDrive d f := fun f => by
    simp only [fannedFrom, cutLeg_of_none (recording_ownerless howner), foldEarly_eq, hempty, List.foldl_nil,
      List.filter_nil]
  rw [faultDrive_eq, hfan, dropLabelUpdate_none (by rw [drive_onDrive_same]; exact hlabel)]
  rfl

/-- A drive's record as it comes to speed and its load begins (R22, R24, R28; log entry 10). -/
def atSpeedLoading (dr : DriveRec) : DriveRec :=
  { dr with
    state := .loading, motor := .atSpeed, spinTimer := none, sector := 0, elapsed := 0, owner := none, tgtCyl := 0
    arm := .recalibrating, recalTimer := some 500000, seekTimer := none
    load := { LoadRec.initial with step := .recalibrate } }

theorem exec_atSpeed {s : State} {d : Drive} (hp : s.powered = true) (hs : (s.drive d).state = .starting) :
    ∃ b : State, exec (.atSpeed d) s = .next (b.close (State.onDrive { s with gateOpen := true } d atSpeedLoading)) := by
  have hload : (s.onDrive d fun dr =>
      { dr with motor := .atSpeed, spinTimer := none, sector := 0, elapsed := 0 }).beginLoad d =
        s.onDrive d atSpeedLoading := onDrive_onDrive _ _
  refine ⟨s.onDrive d fun dr => { dr with motor := .atSpeed, spinTimer := none, sector := 0, elapsed := 0 }, ?_⟩
  show s.live (if (s.drive d).state = .starting then _ else s) = _
  rw [live_powered hp, if_pos hs]
  have hopen : ({ (s.onDrive d fun dr =>
      { dr with motor := .atSpeed, spinTimer := none, sector := 0, elapsed := 0 }).beginLoad d with
        gateOpen := true } : State) = State.onDrive { s with gateOpen := true } d atSpeedLoading := by
    rw [hload]
    rfl
  rw [← hopen]

/-- Settles O46: at speed the drive's load begins, at the timeout an unused drive is faulted; no arm is free after either. -/
theorem startEnds : Obligations.StartEnds := by
  intro d s hp hs hidle hnil
  refine ⟨?_, fun ht hunused => ?_⟩
  · obtain ⟨b, hexec⟩ := exec_atSpeed hp hs
    rw [hexec, close_quiet ⟨idle_onDrive (s := { s with gateOpen := true }) hidle rfl
      (fun ha => by simp [DriveRec.armFree, atSpeedLoading] at ha), startable_nil hnil⟩]
    rfl
  · have hexec : exec (.spinTimeout d) s = .next (s.close (s.faultDrive d .spinTimeout none)) := by
      show execSpinTimeout d s = _
      rw [execSpinTimeout, live_powered hp, if_pos ⟨hs, Option.isSome_iff_ne_none.2 ht⟩]
    have hquiet : (s.onDrive d (faulted .spinTimeout (s.drive d).curCyl (s.drive d).tgtCyl none)).quiet :=
      ⟨idle_onDrive hidle rfl fun ha => by simp [DriveRec.armFree, faulted] at ha, startable_nil hnil⟩
    rw [hexec, faultDrive_unused hunused, close_quiet (quiet_postAll hquiet _)]
    refine ⟨_, rfl, ?_, fun q => ?_⟩
    · rw [postAll_frame, onDrive_congr (f := faulted _ _ _ _) (g := fun dr => { dr with
        state := .faulted, motor := .coasting, arm := .idle, owner := none, spinTimer := none, seekTimer := none
        recalTimer := none, retryMark := false, clearing := false, load := LoadRec.initial
        fault := some { kind := .spinTimeout, curCyl := dr.curCyl, tgtCyl := dr.tgtCyl, owner := none
                        collected := false } }) rfl]
    · rw [postAll_port, onDrive_port]

end Sys2Proof.Proofs

/-! ### The motor at rest, on-cylinder and home events (R27 to R29, R37, R40, R87, R88) -/

namespace Sys2Proof.Proofs
open Sys2Proof Sys2Proof.Machine Sys2Proof.Laws

section
variable {s t : State} {d : Drive} {r q : Request} {e : Ending} {f : DriveRec → DriveRec} {reason : AttnReason}

/-! #### The motor at rest (R37) -/

/-- A drive's record at rest (R37). -/
def rested (dr : DriveRec) : DriveRec := { dr with motor := .off, state := .stopped }

/-- A drive's record with the pack that left during the stop forgotten (R34, R37). -/
def packForgotten (dr : DriveRec) : DriveRec :=
  if dr.packLeft then { dr with serial := none, packLeft := false, map := MapRec.initial, suspects := [] } else dr

/-- The requests of a drive that its rest ends (R37, R40). -/
def restEnds (s : State) (d : Drive) : List Request :=
  s.table.filter fun r => decide (r.drive = d) && decide (r.state = .controlWait)
    && (decide (r.kind = .stopDrive) || decide (r.kind = .clearFault))

theorem comesToRest_eq (s : State) (d : Drive) : (s.onDrive d fun dr => { dr with motor := .off }).comesToRest d =
    ((s.onDrive d rested).endTogether ((restEnds s d).map (·.rid))).onDrive d packForgotten := by
  have hrest : (s.onDrive d fun dr => { dr with motor := .off }).onDrive d (fun dr => { dr with state := .stopped }) =
      s.onDrive d rested := onDrive_onDrive _ _
  unfold State.comesToRest
  dsimp only
  rw [hrest]
  generalize hu : State.endTogether _ _ = u
  have hu' : (s.onDrive d rested).endTogether ((restEnds s d).map (·.rid)) = u := hu
  rw [hu']
  split
  · next h => exact onDrive_congr (by simp [packForgotten, h, DriveRec.discardMap])
  · next h => exact (onDrive_id (by simp [packForgotten, h])).symm

theorem exec_atRest (hp : s.powered = true) (hm : (s.drive d).motor = .coasting) (hs : (s.drive d).state = .stopping) :
    ∃ b : State, exec (.atRest d) s =
      .next (b.close (((s.onDrive d rested).endTogether ((restEnds s d).map (·.rid))).onDrive d packForgotten)) := by
  have hstate : ((s.onDrive d fun dr => { dr with motor := .off }).drive d).state = .stopping := by
    rw [drive_onDrive_same]
    exact hs
  refine ⟨s.onDrive d fun dr => { dr with motor := .off }, ?_⟩
  rw [← comesToRest_eq]
  show execAtRest d s = _
  simp only [execAtRest, live_powered hp, hm, hstate, if_true]

theorem endTogether_nil (s : State) : s.endTogether [] = s := rfl

/-- One request that an event ends DONE simply ends (R55). -/
theorem endTogether_one (h : s.single r) : s.endTogether [r.rid] = s.conclude r.rid (Ending.make .done .none) :=
  (conclude_eq_released h).symm

/-- A list of requests whose only member is known, in a table of rising places. -/
theorem filter_alone {p : Request → Bool} (hr : r ∈ s.table) (hp : p r = true) (hone : ∀ q ∈ s.table, p q = true → q = r)
    (hrise : (s.table.map (·.rid)).Pairwise (· < ·)) : s.table.filter p = [r] := by
  have hnodup : (s.table.filter p).Nodup := (List.Nodup.of_map _ (hrise.imp fun hlt => Nat.ne_of_lt hlt)).filter _
  have hmem : ∀ q, q ∈ s.table.filter p ↔ q = r := fun q => by
    rw [List.mem_filter]
    exact ⟨fun h => hone q h.1 h.2, fun h => h ▸ ⟨hr, hp⟩⟩
  exact List.perm_singleton.1 ((List.perm_ext_iff_of_nodup hnodup (List.nodup_singleton r)).2 fun q => by
    rw [hmem, List.mem_singleton])

end

/-- Settles O47: a FAULTED drive's motor stops alone; a STOPPING drive is STOPPED, and the one request that can wait for it
ends DONE. -/
theorem atRestStops : Obligations.AtRestStops := by
  intro d s hp hm
  refine ⟨fun hs => ?_, fun hs hnil hidle => ⟨fun hnone => ?_, fun r h hd hk hw he hone hrise hleft => ?_⟩⟩
  · have hstate : ((s.onDrive d fun dr => { dr with motor := .off }).drive d).state ≠ .stopping := by
      rw [drive_onDrive_same]
      exact hs
    show execAtRest d s = _
    simp only [execAtRest, live_powered hp, hm, hstate, if_true, if_false]
  · obtain ⟨b, hexec⟩ := exec_atRest hp hm hs
    have hends : restEnds s d = [] := List.filter_eq_nil_iff.2 fun q hq => by simp [hnone q hq]
    have hidle' : ((s.onDrive d rested).onDrive d packForgotten).idle := by
      rw [onDrive_onDrive]
      refine idle_onDrive hidle ?_ fun ha => ?_
      · unfold packForgotten
        split <;> rfl
      · have hstopped : (packForgotten (rested (s.drive d))).state = .stopped := by
          unfold packForgotten
          split <;> rfl
        simp [DriveRec.armFree, hstopped] at ha
    rw [hends, List.map_nil, endTogether_nil, close_quiet ⟨hidle', startable_nil hnil⟩] at hexec
    exact hexec
  · subst hd
    obtain ⟨b, hexec⟩ := exec_atRest hp hm hs
    have hends : restEnds s r.drive = [r] := filter_alone h.1.1 (by simp [hw, hk])
      (fun q hq hqp => hone q hq (by simp_all)) hrise
    have hplain : (s.onDrive r.drive rested).plain r := h
    have hquiet : (s.onDrive r.drive rested).quiet :=
      ⟨idle_onDrive hidle rfl fun ha => by simp [DriveRec.armFree, rested] at ha, startable_nil hnil⟩
    have hstate : ((s.onDrive r.drive rested).drive r.drive).state ≠ .ready := by
      rw [drive_onDrive_same]
      exact nofun
    have hend := quiet_conclude_at (e := Ending.make .done .none) hquiet hplain he (.inl hstate)
    have hkept : packForgotten (((s.onDrive r.drive rested).conclude r.rid (Ending.make .done .none)).drive r.drive) =
        ((s.onDrive r.drive rested).conclude r.rid (Ending.make .done .none)).drive r.drive := by
      have hpack : (((s.onDrive r.drive rested).conclude r.rid (Ending.make .done .none)).drive r.drive).packLeft = false := by
        rw [conclude_plain_drive hplain, if_pos rfl, (lost_keeps _ _).2.2.2.2.2.2.2, drive_onDrive_same]
        exact hleft
      rw [packForgotten, hpack]
      rfl
    rw [hends, List.map_cons, List.map_nil, endTogether_one (plain_single hplain), onDrive_id hkept, close_quiet hend] at hexec
    exact hexec

/-! #### A request moved on by its arm -/

section
variable {s t : State} {d : Drive} {r q : Request} {e : Ending} {f : DriveRec → DriveRec} {n : Nat}

theorem queue_eq_nil : s.queue d = [] ↔
    (∀ x ∈ s.table, x.drive = d → x.state ≠ .queued) ∧ ∀ u, (s.drive d).labelUpdate = some u → u.state ≠ .queued := by
  have hinsert : ∀ (x : Request) l, insertBy (fun r : Request => r.rid) x l ≠ [] := by
    intro x l
    cases l with
    | nil => simp [insertBy]
    | cons y l =>
      rw [insertBy]
      split <;> simp
  have htable : (s.table.filter fun r => decide (r.drive = d) && decide (r.state = .queued)) = [] ↔
      ∀ x ∈ s.table, x.drive = d → x.state ≠ .queued := by simp [List.filter_eq_nil_iff]
  unfold State.queue
  cases (s.drive d).labelUpdate with
  | none => simp [htable]
  | some u => by_cases hu : u.state = .queued <;> simp [hu, hinsert, htable]

/-- A record replaced by one that is not queued queues nothing. -/
theorem queue_withRequest_nil (hq : q.state ≠ .queued) (h : s.queue d = []) : (s.withRequest q).queue d = [] := by
  rw [queue_eq_nil] at h ⊢
  refine ⟨fun x hx hxd => ?_, h.2⟩
  obtain ⟨y, hy, rfl⟩ := List.mem_map.1 hx
  by_cases hyq : y.rid = q.rid
  · rwa [if_pos hyq]
  · rw [if_neg hyq] at hxd ⊢
    exact h.1 y hy hxd

/-- The places, kinds, drives, ports and early ends of a table's records are all that SYNCHRONIZE awaits by (R152). -/
theorem awaited_withRequest (he : s.entry r) (hid : q.rid = r.rid) (hk : q.kind = r.kind) (hd : q.drive = r.drive)
    (hp : q.port = r.port) (hee : q.earlyEffective = r.earlyEffective) {x : Request} (h : s.awaited x ≠ []) :
    (s.withRequest q).awaited x ≠ [] := by
  obtain ⟨z, hz⟩ := List.exists_mem_of_ne_nil _ h
  obtain ⟨hz, hzx⟩ := List.mem_filter.1 hz
  refine List.ne_nil_of_mem (List.mem_filter.2 ⟨List.mem_map.2 ⟨z, hz, rfl⟩, ?_⟩)
  split
  · next hzq =>
    rw [he.2.1 z hz (hzq.trans hid)] at hzx
    rwa [hid, hk, hd, hp, hee]
  · exact hzx

/-- A record replaced by one that neither is queued nor waits as drive-control requests do leaves an idle state idle. -/
theorem idle_withRequest_moved (h : s.idle) (he : s.entry r) (hid : q.rid = r.rid) (hk : q.kind = r.kind)
    (hd : q.drive = r.drive) (hp : q.port = r.port) (hee : q.earlyEffective = r.earlyEffective) (hq : q.state ≠ .queued)
    (hw : q.state ≠ .controlWait) : (s.withRequest q).idle := by
  obtain ⟨hwait, hsettled, hqueue⟩ := h
  refine ⟨hwait, List.filter_eq_nil_iff.2 fun x hx hxs => ?_, fun x hx => queue_withRequest_nil hq (hqueue x hx)⟩
  simp only [Bool.and_eq_true, decide_eq_true_eq, List.isEmpty_iff] at hxs
  obtain ⟨⟨hsync, hcontrol⟩, hnone⟩ := hxs
  obtain ⟨y, hy, rfl⟩ := List.mem_map.1 hx
  by_cases hyq : y.rid = q.rid
  · rw [if_pos hyq] at hcontrol
    exact hw hcontrol
  · rw [if_neg hyq] at hsync hcontrol hnone
    have hawaits : s.awaited y ≠ [] := fun hnil =>
      List.filter_eq_nil_iff.1 hsettled y hy (by simp [hsync, hcontrol, hnil])
    exact awaited_withRequest he hid hk hd hp hee hawaits hnone

theorem quiet_withRequest_moved (h : s.quiet) (he : s.entry r) (hid : q.rid = r.rid) (hk : q.kind = r.kind)
    (hd : q.drive = r.drive) (hp : q.port = r.port) (hee : q.earlyEffective = r.earlyEffective) (hq : q.state ≠ .queued)
    (hw : q.state ≠ .controlWait) : (s.withRequest q).quiet :=
  ⟨idle_withRequest_moved h.1 he hid hk hd hp hee hq hw, h.2⟩

/-- A request without a path, and waiting for none, leaves the paths as they are. -/
theorem leavePaths_pathless (h : s.pathless n) : s.leavePaths n = s := by
  obtain ⟨h0, h1, hpref⟩ := h
  have hfilter : s.preference.filter (· != n) = s.preference :=
    List.filter_eq_self.2 fun a ha => by simpa using ne_of_mem_of_not_mem ha hpref
  rw [State.leavePaths, hfilter, releasePath_eq_released]
  simp only [released, h0, h1, Bool.false_eq_true, if_false]

/-- The arm sent to a cylinder for a request that holds no path (R27): on cylinder at once, the request POSITIONED, or SEEKING. -/
theorem seekTo_pathless {c : Nat} (h : s.entry r) (hpath : s.pathless r.rid)
    (hk : c ≠ (s.drive d).curCyl ∨ r.kind ≠ .position) : s.seekTo d r.rid c =
      (s.withRequest (if r.op.isSome = true then r else r.sentBy (s.drive d) c)).onDrive d fun dr => dr.sentTo c := by
  have hput : ∀ (g : DriveRec → DriveRec) st, (g (s.drive d)).labelUpdate = (s.drive d).labelUpdate →
      (s.onDrive d g).putRequest (r.inState st) =
        (s.withRequest (if r.op.isSome = true then r else { r with state := st })).onDrive d g := fun g st _ => by
    have hkind : (r.inState st).kind ≠ .labelUpdate := by
      unfold Request.inState
      split <;> exact h.2.2
    rw [putRequest_table hkind]
    rfl
  have hreq : ∀ g : DriveRec → DriveRec, (g (s.drive d)).labelUpdate = (s.drive d).labelUpdate →
      (s.onDrive d g).request? r.rid = some r := fun g hg => (request?_onDrive hg _).trans (request?_entry h)
  unfold State.seekTo
  by_cases hc : (s.drive d).curCyl = c
  · have hkind : r.kind ≠ .position := hk.resolve_left fun hne => hne hc.symm
    have hsent : (s.withRequest (if r.op.isSome = true then r else r.sentBy (s.drive d) c)).onDrive d (fun dr => dr.sentTo c) =
        (s.withRequest (if r.op.isSome = true then r else { r with state := .positioned })).onDrive d fun dr =>
          { dr with arm := .onCylinder, retryMark := false } := by
      rw [Request.sentBy, if_pos hc]
      exact onDrive_congr (by rw [withRequest_drive, DriveRec.sentTo, if_pos hc])
    rw [if_pos hc, State.arrive, hreq _ rfl, hsent, ← hput (fun dr => { dr with arm := .onCylinder, retryMark := false }) _ rfl]
    simp only [hkind, if_false]
  · have hsent : (s.withRequest (if r.op.isSome = true then r else r.sentBy (s.drive d) c)).onDrive d (fun dr => dr.sentTo c) =
        (s.withRequest (if r.op.isSome = true then r else { r with state := .seeking })).onDrive d fun dr =>
          { dr with tgtCyl := c, arm := .seeking, seekTimer := some Config.seekTime } := by
      rw [Request.sentBy, if_neg hc]
      exact onDrive_congr (by rw [withRequest_drive, DriveRec.sentTo, if_neg hc]; rfl)
    rw [if_neg hc, leavePaths_pathless hpath, hsent,
      ← hput (fun dr => { dr with tgtCyl := c, arm := .seeking, seekTimer := some Config.seekTime }) _ rfl]
    exact onRequest_some (hreq _ rfl) _

/-- A POSITION whose cylinder the arm stands on ends DONE (R87). -/
theorem seekTo_position {c : Nat} (h : s.entry r) (hk : r.kind = .position) (hc : (s.drive d).curCyl = c) :
    s.seekTo d r.rid c = (s.onDrive d fun dr => dr.sentTo c).conclude r.rid (Ending.make .done .none) := by
  have hsent : (s.onDrive d fun dr => dr.sentTo c) = s.onDrive d fun dr => { dr with arm := .onCylinder, retryMark := false } :=
    onDrive_congr (by rw [DriveRec.sentTo, if_pos hc])
  have hreq : (s.onDrive d fun dr => { dr with arm := .onCylinder, retryMark := false }).request? r.rid = some r :=
    (request?_onDrive rfl _).trans (request?_entry h)
  rw [hsent, State.seekTo, if_pos hc, State.arrive, hreq]
  simp only [hk, if_true]

/-- After the arm is sent for its owner, nothing follows where nothing followed. -/
theorem quiet_sent {c : Nat} {g : DriveRec → DriveRec} (h : s.quiet) (he : s.entry r) (ho : (s.drive d).owner = some r.rid)
    (hg : ∀ dr, (g dr).owner = dr.owner ∧ (g dr).labelUpdate = dr.labelUpdate ∧ (g dr).state = dr.state
      ∧ (g dr).packSeated = dr.packSeated ∧ (g dr).doorClosed = dr.doorClosed) (dr : DriveRec) :
    ((s.withRequest (if r.op.isSome = true then r else r.sentBy dr c)).onDrive d g).quiet := by
  have hmoved : (s.withRequest (if r.op.isSome = true then r else r.sentBy dr c)).quiet := by
    split
    · rwa [withRequest_self he]
    · refine quiet_withRequest_moved (r := r) h he rfl rfl rfl rfl rfl ?_ ?_ <;> unfold Request.sentBy <;> dsimp only <;>
        split <;> exact nofun
  obtain ⟨h1, h2, h3, h4, h5⟩ := hg (s.drive d)
  exact quiet_onDrive_busy hmoved h2 (by simp [DriveRec.armFree, h1, ho]) h3 h4 h5

theorem sentTo_keeps (dr : DriveRec) (c : Nat) : (dr.sentTo c).owner = dr.owner ∧ (dr.sentTo c).labelUpdate = dr.labelUpdate
    ∧ (dr.sentTo c).state = dr.state ∧ (dr.sentTo c).packSeated = dr.packSeated ∧ (dr.sentTo c).doorClosed = dr.doorClosed := by
  unfold DriveRec.sentTo
  split <;> exact ⟨rfl, rfl, rfl, rfl, rfl⟩

end

end Sys2Proof.Proofs

/-! ### The on-cylinder and home events (R24, R27 to R29, R40, R87, R88, R140 to R144) -/

namespace Sys2Proof.Proofs
open Sys2Proof Sys2Proof.Machine Sys2Proof.Laws

section
variable {s t : State} {d : Drive} {r q : Request} {e : Ending} {f : DriveRec → DriveRec} {n : Nat}

theorem endCancelled_none (h : s.cancelled d = []) : s.endCancelled d = s := by
  rw [State.endCancelled, h, List.foldl_nil]

theorem exec_onCylinder {settled : Nat} (hp : s.powered = true) (ha : (s.drive d).arm = .seeking) :
    exec (.onCylinder d settled) s = .next (s.close (s.onCylinderEvent d settled)) := by
  show execOnCylinder d settled s = _
  simp only [execOnCylinder, live_powered hp, ha, if_true]

theorem exec_homeEvent (hp : s.powered = true) (ha : (s.drive d).arm = .recalibrating) :
    exec (.homeEvent d) s = .next (s.close (s.homeEvent d)) := by
  show execHomeEvent d s = _
  simp only [execHomeEvent, live_powered hp, ha, if_true]

/-- A drive's record after the on-cylinder event (R27; log entry 12). -/
def settledOn (n : Nat) (dr : DriveRec) : DriveRec := { dr with seekTimer := none, curCyl := dr.tgtCyl, armAt := n }

theorem onCylinderEvent_loading (hs : (s.drive d).state = .loading) : s.onCylinderEvent d n =
    s.onDrive d fun dr => { settledOn n dr with arm := .idle, load := { dr.load with step := .read } } := by
  have hstate : ((s.onDrive d (settledOn n)).drive d).state = .loading := by rw [drive_onDrive_same]; exact hs
  show (if ((s.onDrive d (settledOn n)).drive d).state = .loading then _ else _) = _
  rw [if_pos hstate]
  exact onDrive_onDrive _ _

/-- A drive's record with its owner on cylinder (R27, R144). -/
def arrived (dr : DriveRec) : DriveRec := { dr with arm := .onCylinder, retryMark := false }

theorem arrive_entry (he : s.entry r) : s.arrive d r.rid =
    if r.kind = .position then (s.onDrive d arrived).conclude r.rid (Ending.make .done .none)
    else (s.onDrive d arrived).putRequest (r.inState .positioned) := by
  have hreq : (s.onDrive d arrived).request? r.rid = some r := (request?_onDrive rfl _).trans (request?_entry he)
  show (match (s.onDrive d arrived).request? r.rid with
    | none => _
    | some r => _) = _
  rw [hreq]
  rfl

theorem onCylinderEvent_owned (hs : (s.drive d).state ≠ .loading) (ho : (s.drive d).owner = some r.rid) (he : s.entry r) :
    s.onCylinderEvent d n =
      let u := s.onDrive d fun dr => arrived (settledOn n dr)
      if r.kind = .position then u.conclude r.rid (Ending.make .done .none) else u.putRequest (r.inState .positioned) := by
  have hstate : ((s.onDrive d (settledOn n)).drive d).state ≠ .loading := by rw [drive_onDrive_same]; exact hs
  have howner : ((s.onDrive d (settledOn n)).drive d).owner = some r.rid := by rw [drive_onDrive_same]; exact ho
  have hon : (s.onDrive d (settledOn n)).onDrive d arrived = s.onDrive d fun dr => arrived (settledOn n dr) :=
    onDrive_onDrive _ _
  show (if ((s.onDrive d (settledOn n)).drive d).state = .loading then _ else _) = _
  rw [if_neg hstate]
  show (match ((s.onDrive d (settledOn n)).drive d).owner with
    | some rid => (s.onDrive d (settledOn n)).arrive d rid
    | none => ((s.onDrive d (settledOn n)).onDrive d fun dr => { dr with arm := .idle }).endCancelled d) = _
  have he' : (s.onDrive d (settledOn n)).entry r := he
  rw [howner]
  exact (arrive_entry he').trans (by rw [hon])

theorem onCylinderEvent_ownerless (hs : (s.drive d).state ≠ .loading) (ho : (s.drive d).owner = none)
    (hc : s.cancelled d = []) :
    s.onCylinderEvent d n = s.onDrive d fun dr => { settledOn n dr with arm := .idle } := by
  have hstate : ((s.onDrive d (settledOn n)).drive d).state ≠ .loading := by rw [drive_onDrive_same]; exact hs
  have howner : ((s.onDrive d (settledOn n)).drive d).owner = none := by rw [drive_onDrive_same]; exact ho
  have hidle : (s.onDrive d (settledOn n)).onDrive d (fun dr => { dr with arm := .idle }) =
      s.onDrive d fun dr => { settledOn n dr with arm := .idle } := onDrive_onDrive _ _
  show (if ((s.onDrive d (settledOn n)).drive d).state = .loading then _ else _) = _
  rw [if_neg hstate]
  show (match ((s.onDrive d (settledOn n)).drive d).owner with
    | some rid => (s.onDrive d (settledOn n)).arrive d rid
    | none => ((s.onDrive d (settledOn n)).onDrive d fun dr => { dr with arm := .idle }).endCancelled d) = _
  rw [howner]
  exact (endCancelled_none (s := (s.onDrive d (settledOn n)).onDrive d fun dr => { dr with arm := .idle }) hc).trans hidle

/-- A movement that ends the request it was made for, nothing else following. -/
theorem quiet_conclude_moved (hs : s.endsQuietly r) (hl : (f (s.drive r.drive)).labelUpdate = (s.drive r.drive).labelUpdate)
    (hf : (f (s.drive r.drive)).armFree = false) (hst : (f (s.drive r.drive)).state = (s.drive r.drive).state)
    (hpack : (f (s.drive r.drive)).packSeated = (s.drive r.drive).packSeated)
    (hdoor : (f (s.drive r.drive)).doorClosed = (s.drive r.drive).doorClosed) :
    ((s.onDrive r.drive f).conclude r.rid e).quiet := by
  obtain ⟨hquiet, hplain, hqueue, hearly⟩ := hs
  exact quiet_conclude_at (quiet_onDrive_busy hquiet hl hf hst hpack hdoor) hplain hearly
    (.inr ((queue_congr (s := s) (t := s.onDrive r.drive f) rfl (onDrive_labelUpdate hl r.drive)).trans hqueue))

end

/-- Settles O48: the four ends of a seek, none of which lets anything else begin. -/
theorem onCylinderTaken : Obligations.OnCylinderTaken := by
  intro d n s hp ha hq
  refine ⟨fun hs => ?_, fun hs => ⟨fun r ho he hst => ⟨fun hk hop => ?_, fun hk hd hends => ?_⟩, fun ho hc hqueue => ?_⟩⟩
  · rw [exec_onCylinder hp ha, onCylinderEvent_loading hs, close_quiet (quiet_onDrive_busy hq rfl
      (by simp [DriveRec.armFree, settledOn, hs]) rfl rfl rfl)]
    rfl
  · have hmoved : (s.withRequest { r with state := .positioned }).quiet :=
      quiet_withRequest_moved hq he rfl rfl rfl rfl rfl nofun nofun
    have hput : (s.onDrive d fun dr => arrived (settledOn n dr)).putRequest (r.inState .positioned) =
        (s.withRequest { r with state := .positioned }).onDrive d fun dr => arrived (settledOn n dr) := by
      have hstate : r.inState .positioned = { r with state := .positioned } := by simp [Request.inState, hop]
      have hkind : ({ r with state := .positioned } : Request).kind ≠ .labelUpdate := he.2.2
      rw [hstate, putRequest_table hkind]
      rfl
    rw [exec_onCylinder hp ha, onCylinderEvent_owned hs ho he, if_neg hk, hput, close_quiet (quiet_onDrive_busy hmoved rfl
      (by simp [DriveRec.armFree, arrived, settledOn, ho]) rfl rfl rfl)]
    rfl
  · subst hd
    rw [exec_onCylinder hp ha, onCylinderEvent_owned hs ho hends.2.1.1, if_pos hk, close_quiet (quiet_conclude_moved hends rfl
      (by simp [DriveRec.armFree, arrived, settledOn, ho]) rfl rfl rfl)]
    rfl
  · rw [exec_onCylinder hp ha, onCylinderEvent_ownerless hs ho hc, close_quiet (quiet_onDrive_unqueued hq rfl hqueue rfl rfl rfl)]
    rfl

section
variable {s : State} {d : Drive} {r : Request} {c : Nat}

/-! #### The home event (R28) -/

/-- A drive's record after the home event (R28; log entry 12). -/
def homed (dr : DriveRec) : DriveRec := { dr with recalTimer := none, curCyl := 0, armAt := 0 }

/-- The home event goes on as the drive's record has it. -/
theorem homeEvent_eq (s : State) (d : Drive) : s.homeEvent d =
    if (s.drive d).state = .loading then (s.onDrive d homed).loadSeek d Config.labelCyl
    else if (s.drive d).clearing then (s.onDrive d homed).clearingDone d
    else match (s.drive d).owner with
      | none => ((s.onDrive d homed).onDrive d fun dr => { dr with arm := .idle }).endCancelled d
      | some rid =>
        match (s.drive d).afterHome with
        | .finish => ((s.onDrive d homed).onDrive d arrived).conclude rid (Ending.make .done .none)
        | .toBlock => ((s.onDrive d homed).onDrive d fun dr => { dr with arm := .onCylinder }).aim rid
        | .toTarget c => ((s.onDrive d homed).onDrive d fun dr => { dr with arm := .onCylinder }).seekTo d rid c := by
  unfold State.homeEvent
  dsimp only
  rw [drive_onDrive_same]
  rfl

theorem loadSeek_homed (s : State) (d : Drive) : (s.onDrive d homed).loadSeek d Config.labelCyl = s.onDrive d fun dr =>
    { homed dr with
      tgtCyl := 568, arm := .seeking, seekTimer := some 80000, head := 0, load := { dr.load with step := .seek } } := by
  have hcyl : ((s.onDrive d homed).drive d).curCyl ≠ Config.labelCyl := by
    rw [drive_onDrive_same]
    exact Nat.ne_of_beq_eq_false rfl
  rw [State.loadSeek, if_neg hcyl]
  exact onDrive_onDrive _ _

/-- A drive's record as its clearing ends, but for attention (R40). -/
def clearedAtHome (dr : DriveRec) : DriveRec :=
  { homed dr with fault := none, state := .ready, arm := .idle, clearing := false }

/-- What a port holds does not matter where the ports are replaced. -/
theorem overwritten_ports (s : State) {p : Port} (f : PortRec → PortRec) (g : DriveRec → DriveRec) (P : Vector PortRec 4) :
    ({ (s.onPort p f).onDrive d g with ports := P } : State) = { s.onDrive d g with ports := P } := rfl

/-- Attention set for the listed ports that a test does not spare, with its notices (R160). -/
theorem attention_sparing (spared : Port → Bool) (x : AttnReason) {l : List Port} (hl : l.Nodup) (s : State) :
    let t := l.foldl (fun s p => if spared p then s else s.setAttention d p x) s
    t = { s.onDrive d fun dr => { dr with unit := { dr.unit with attention := (t.drive d).unit.attention } } with
        ports := t.ports }
      ∧ ∀ q, ofPort (t.drive d).unit.attention q =
            (if q ∈ l ∧ spared q = false then some x else ofPort (s.drive d).unit.attention q)
          ∧ t.port q = if q ∈ l ∧ spared q = false then (s.port q).posted .attention (.drive d) (.reason x) else s.port q := by
  induction l generalizing s with
  | nil =>
    refine ⟨?_, fun q => by simp⟩
    exact (onDrive_id (d := d) (f := fun dr => { dr with unit := { dr.unit with
      attention := (s.drive d).unit.attention } }) rfl).symm
  | cons p l ih =>
    obtain ⟨hp, hl⟩ := List.nodup_cons.1 hl
    rw [List.foldl_cons]
    cases hsp : spared p with
    | true =>
      obtain ⟨hframe, hports⟩ := ih hl s
      simp only [if_true]
      refine ⟨hframe, fun q => ?_⟩
      have hmem : (q ∈ p :: l ∧ spared q = false) ↔ (q ∈ l ∧ spared q = false) := by
        rw [List.mem_cons]
        refine ⟨fun ⟨hq, hsq⟩ => ⟨hq.resolve_left fun hqp => ?_, hsq⟩, fun ⟨hq, hsq⟩ => ⟨.inr hq, hsq⟩⟩
        rw [hqp, hsp] at hsq
        cases hsq
      simp only [hmem]
      exact hports q
    | false =>
      obtain ⟨hframe, hports⟩ := ih hl (s.setAttention d p x)
      simp only [Bool.false_eq_true, if_false]
      generalize l.foldl _ (s.setAttention d p x) = t at *
      rw [State.setAttention, post_eq] at hframe hports
      refine ⟨hframe.trans ?_, fun q => ?_⟩
      · exact (overwritten_ports _ _ _ _).trans (by rw [onDrive_onDrive])
      · obtain ⟨hattn, hport⟩ := hports q
        rw [hattn, hport]
        rw [onPort_drive, drive_onDrive_same]
        by_cases hqp : q = p
        · subst hqp
          simp [hp, hsp]
        · simp [hqp, ofPort_setOfPort_other _ _ hqp, port_onPort_other]

/-- A clearing without a CLEAR FAULT waiting for it (R40, R160). -/
theorem clearingDone_unasked (h : s.clearers d = []) : (s.onDrive d homed).clearingDone d =
    forPorts (fun s p => s.setAttention d p .faultCleared) (s.onDrive d clearedAtHome) := by
  have hnone : (s.onDrive d homed).clearers d = [] := h
  have hcleared : (s.onDrive d homed).onDrive d
      (fun dr => { dr with fault := none, state := .ready, arm := .idle, clearing := false }) = s.onDrive d clearedAtHome :=
    onDrive_onDrive _ _
  unfold State.clearingDone
  dsimp only
  rw [hnone, hcleared]
  rfl

/-- A clearing for which one CLEAR FAULT waits (R40, R160). -/
theorem clearingDone_asked (h : s.clearers d = [r]) : (s.onDrive d homed).clearingDone d =
    (allPorts.foldl (fun s p => if decide (r.port = p) then s else s.setAttention d p .faultCleared)
      (s.onDrive d clearedAtHome)).endTogether [r.rid] := by
  have hone : (s.onDrive d homed).clearers d = [r] := h
  have hcleared : (s.onDrive d homed).onDrive d
      (fun dr => { dr with fault := none, state := .ready, arm := .idle, clearing := false }) = s.onDrive d clearedAtHome :=
    onDrive_onDrive _ _
  unfold State.clearingDone
  dsimp only
  rw [hone, hcleared]
  simp only [List.any_cons, List.any_nil, Bool.or_false]
  rfl

/-- The arm sent from cylinder 0 to where its owner's operation needs it (R140, R143, R144). -/
theorem homeEvent_back (hs : (s.drive d).state ≠ .loading) (hc : (s.drive d).clearing = false)
    (ho : (s.drive d).owner = some r.rid) (he : s.entry r) (hd : r.drive = d)
    (hto : (s.drive d).afterHome = .toBlock ∧ c = cylOf (s.leg r).track ∨ (s.drive d).afterHome = .toTarget c) :
    s.homeEvent d = (s.onDrive d fun dr => { homed dr with arm := .onCylinder }).seekTo d r.rid c := by
  have hon : (s.onDrive d homed).onDrive d (fun dr => { dr with arm := .onCylinder }) =
      s.onDrive d fun dr => { homed dr with arm := .onCylinder } := onDrive_onDrive _ _
  rw [homeEvent_eq, if_neg hs, hc, ho, hon]
  rcases hto with ⟨hafter, rfl⟩ | hafter
  · have hreq : (s.onDrive d fun dr => { homed dr with arm := .onCylinder }).request? r.rid = some r :=
      (request?_onDrive rfl _).trans (request?_entry he)
    have hleg : (s.onDrive d fun dr => { homed dr with arm := .onCylinder }).leg r = s.leg r :=
      leg_congr fun e => by
        by_cases hed : e = d
        · rw [hed, drive_onDrive_same]
          rfl
        · rw [drive_onDrive_other _ hed]
    simp only [hafter, Bool.false_eq_true, if_false, State.aim, hreq, hleg, hd]
  · simp only [hafter, Bool.false_eq_true, if_false]

theorem homed_sentTo (s : State) (d : Drive) (c : Nat) :
    (s.onDrive d fun dr => { homed dr with arm := .onCylinder }).onDrive d (fun dr => dr.sentTo c) =
      s.onDrive d fun dr => (homed dr).sentTo c := by
  rw [onDrive_onDrive]
  refine onDrive_congr ?_
  unfold DriveRec.sentTo
  split <;> rfl

end

/-- Settles O49: what each home event leaves, by who the recalibrate was for. -/
theorem homeTaken : Obligations.HomeTaken := by
  intro d s hp ha hq
  refine ⟨fun hs => ?_, fun hs hc ho hcl hqueue => ?_, fun r hs hc hcl hr => ?_, fun hs hc => ?_⟩
  · rw [exec_homeEvent hp ha, homeEvent_eq, if_pos hs, loadSeek_homed, close_quiet (quiet_onDrive_busy hq rfl
      (by simp [DriveRec.armFree, homed, hs]) rfl rfl rfl)]
    rfl
  · have hquiet : (s.onDrive d fun dr => { clearedAtHome dr with unit := { dr.unit with
        attention := Vector.replicate 4 (some .faultCleared) } }).quiet :=
      ⟨idle_onDrive_unqueued hq.1 rfl hqueue, startable_onDrive hq.2 (by simp [clearedAtHome, homed, hs])
        fun _ hm => by simp [mayStart, clearedAtHome, homed] at hm⟩
    have hloading : (s.drive d).state ≠ .loading := by simp [hs]
    obtain ⟨hframe, hports⟩ := attention_all (s.onDrive d clearedAtHome) d .faultCleared
    rw [exec_homeEvent hp ha, homeEvent_eq, if_neg hloading, if_pos hc, clearingDone_unasked hcl]
    generalize forPorts _ (s.onDrive d clearedAtHome) = t at *
    rw [onDrive_onDrive] at hframe
    have hclosed : t.quiet := by
      rw [hframe]
      exact hquiet
    exact ⟨t, by rw [close_quiet hclosed], hframe, hports⟩
  · have hloading : (s.drive d).state ≠ .loading := by simp [hs]
    obtain ⟨hframe, hports⟩ := attention_sparing (d := d) (fun p => decide (r.port = p)) .faultCleared (l := allPorts)
      (by decide) (s.onDrive d clearedAtHome)
    rw [exec_homeEvent hp ha, homeEvent_eq, if_neg hloading, if_pos hc, clearingDone_asked hcl]
    generalize allPorts.foldl _ (s.onDrive d clearedAtHome) = t at *
    rw [onDrive_onDrive] at hframe
    have hplain : s.single r := plain_single hr
    have hsingle : t.single r := by
      have htable : t.table = s.table := by rw [hframe]; rfl
      obtain ⟨⟨hmem, honly, hkind⟩, hrest⟩ := hplain
      exact ⟨⟨htable ▸ hmem, htable ▸ honly, hkind⟩, hrest⟩
    rw [endTogether_one hsingle]
    refine ⟨t, rfl, hframe, fun q => ?_⟩
    obtain ⟨hattn, hport⟩ := hports q
    rw [hattn, hport, drive_onDrive_same]
    have hmem : q ∈ allPorts := by cases q <;> decide
    by_cases hqr : q = r.port
    · simp [hqr, clearedAtHome, homed]
    · simp [hqr, hmem, Ne.symm hqr]
  · have hloading : (s.drive d).state ≠ .loading := by simp [hs]
    refine ⟨fun r ho hd hafter hends => ?_, fun r c ho he hd hpath hto => ⟨fun hk => ?_, fun h0 hk hends => ?_⟩,
      fun ho hcn hqueue => ?_⟩
    · subst hd
      have hon : (s.onDrive r.drive homed).onDrive r.drive arrived = s.onDrive r.drive fun dr => arrived (homed dr) :=
        onDrive_onDrive _ _
      rw [exec_homeEvent hp ha, homeEvent_eq, if_neg hloading, hc, ho, hafter]
      simp only [Bool.false_eq_true, if_false]
      rw [hon, close_quiet (quiet_conclude_moved hends rfl (by simp [DriveRec.armFree, arrived, homed, ho]) rfl rfl rfl)]
      rfl
    · have hkind : c ≠ ((s.onDrive d fun dr => { homed dr with arm := .onCylinder }).drive d).curCyl ∨ r.kind ≠ .position := by
        rw [drive_onDrive_same]
        exact hk
      have hsent := seekTo_pathless (s := s.onDrive d fun dr => { homed dr with arm := .onCylinder }) he hpath hkind
      rw [drive_onDrive_same, onDrive_withRequest, homed_sentTo, ← onDrive_withRequest] at hsent
      rw [exec_homeEvent hp ha, homeEvent_back hloading hc ho he hd hto, hsent,
        close_quiet (quiet_sent hq he ho (fun dr => sentTo_keeps (homed dr) c) _)]
      rfl
    · subst hd
      have hcyl : ((s.onDrive r.drive fun dr => { homed dr with arm := .onCylinder }).drive r.drive).curCyl = c := by
        rw [drive_onDrive_same]
        exact h0.symm
      have hsent := seekTo_position (s := s.onDrive r.drive fun dr => { homed dr with arm := .onCylinder }) he hk hcyl
      rw [homed_sentTo] at hsent
      obtain ⟨h1, h2, h3, h4, h5⟩ := sentTo_keeps (homed (s.drive r.drive)) c
      have howner : ((homed (s.drive r.drive)).sentTo c).owner = some r.rid := h1.trans ho
      rw [exec_homeEvent hp ha, homeEvent_back hloading hc ho he rfl hto, hsent,
        close_quiet (quiet_conclude_moved hends h2 (by simp [DriveRec.armFree, howner]) h3 h4 h5)]
      rfl
    · have hidle : (s.onDrive d homed).onDrive d (fun dr => { dr with arm := .idle }) =
          s.onDrive d fun dr => { homed dr with arm := .idle } := onDrive_onDrive _ _
      rw [exec_homeEvent hp ha, homeEvent_eq, if_neg hloading, hc, ho]
      simp only [Bool.false_eq_true, if_false]
      rw [hidle, endCancelled_none (s := s.onDrive d fun dr => { homed dr with arm := .idle }) hcn,
        close_quiet (quiet_onDrive_unqueued hq rfl hqueue rfl rfl rfl)]
      rfl

end Sys2Proof.Proofs

/-! ### Drive-control requests as they arrive (R20 to R23, R40, R50, R152) -/

namespace Sys2Proof.Proofs
open Sys2Proof Sys2Proof.Machine Sys2Proof.Laws

section
variable {s t : State} {p : Port} {f : RequestFrame} {d : Drive} {o : Operands} {k : Kind} {c : Instr} {e : Ending}

/-- A drive-control request as it stands in the table, and the state with it entered (R50, R54). -/
def controlRequest (s : State) (k : Kind) (p : Port) (f : RequestFrame) (d : Drive) (o : Operands) : Request :=
  { s.newRequest p d k f o with state := .controlWait }

def controlEntered (s : State) (k : Kind) (p : Port) (f : RequestFrame) (d : Drive) (o : Operands) : State :=
  { s.onPort p fun pr => { pr with
      marker := if f.chain then some { member := some (controlRequest s k p f d o).rid, drive := d, standing := .unended }
        else none }
    with table := s.table ++ [controlRequest s k p f d o], nextOrder := s.nextOrder + 1 }

@[simp] theorem controlEntered_drive (e : Drive) : (controlEntered s k p f d o).drive e = s.drive e := rfl

/-- What the kinds of drive-control requests have in common (R46). -/
theorem driveControl_kind (hk : k.driveControl = true) :
    k.armUsing = false ∧ k.isData = false ∧ k.writeClass = false ∧ k.carriesUnit = true ∧ k ≠ .labelUpdate := by
  revert hk
  cases k <;> decide

/-- A drive-control request that meets no denial, in no chain, is entered and begins (R50). -/
theorem exec_control (hc : requestCommand k p f = some c) (hk : k.driveControl = true) (h : s.reaches k p f d o)
    (hd : s.driveChecks p d k f o = none) (hm : (s.port p).marker = none) :
    exec c s = .next (match (controlEntered s k p f d o).beginControl (controlRequest s k p f d o) with
      | (t, none) => s.close t
      | (t, some e) => s.close (t.conclude s.nextOrder e)) := by
  obtain ⟨harm, hdata, -, hunit, -⟩ := driveControl_kind hk
  have hexec : exec c s = .next (State.acceptEntry k p f s d o) := by
    have hlive : exec c s = s.live (s.arrival p k f (State.acceptEntry k p f)) := by
      revert hc
      cases k <;> simp [Kind.driveControl] at hk <;> rintro ⟨rfl⟩ <;> rfl
    rw [hlive, live_powered (reaches_powered h), arrival_reaches h hunit, hd]
  rw [hexec]
  simp only [State.acceptEntry, State.memberStanding, hm, Option.map_none, State.noteClass, hdata, harm, State.newRequest,
    Bool.false_eq_true, false_and, if_false]
  rfl

theorem exec_control_waits (hc : requestCommand k p f = some c) (hk : k.driveControl = true) (h : s.reaches k p f d o)
    (hd : s.driveChecks p d k f o = none) (hm : (s.port p).marker = none)
    (hb : (controlEntered s k p f d o).beginControl (controlRequest s k p f d o) = (t, none)) :
    exec c s = .next (s.close t) := by
  rw [exec_control hc hk h hd hm, hb]

theorem exec_control_ends (hc : requestCommand k p f = some c) (hk : k.driveControl = true) (h : s.reaches k p f d o)
    (hd : s.driveChecks p d k f o = none) (hm : (s.port p).marker = none)
    (hb : (controlEntered s k p f d o).beginControl (controlRequest s k p f d o) = (t, some e)) :
    exec c s = .next (s.close (t.conclude s.nextOrder e)) := by
  rw [exec_control hc hk h hd hm, hb]

/-- No SYNCHRONIZE awaits a drive-control request (R152). -/
theorem awaited_controlEntered (hk : k.driveControl = true) (q : Request) :
    (controlEntered s k p f d o).awaited q = s.awaited q := by
  obtain ⟨-, hdata, -⟩ := driveControl_kind hk
  simp [State.awaited, controlEntered, controlRequest, State.newRequest, hdata]

/-- An entered drive-control request that need not be settled lets nothing follow. -/
theorem quiet_controlEntered (hk : k.driveControl = true) (h : s.quiet)
    (hsync : k = .synchronize → s.awaited (controlRequest s k p f d o) ≠ []) : (controlEntered s k p f d o).quiet := by
  obtain ⟨-, hdata, -, -, -⟩ := driveControl_kind hk
  have hawaited := awaited_controlEntered (s := s) (p := p) (f := f) (d := d) (o := o) hk
  refine ⟨idle_of h.1 rfl ?_ fun e he => ⟨he, ?_⟩, h.2⟩
  · simp only [State.settled, hawaited]
    refine (List.filter_append _ _).trans ?_
    rw [List.filter_cons_of_neg, List.filter_nil, List.append_nil]
    intro hx
    simp only [Bool.and_eq_true, decide_eq_true_eq, List.isEmpty_iff] at hx
    exact hsync hx.1.1 hx.2
  · simp only [State.queue, controlEntered_drive]
    simp [controlEntered, controlRequest]

theorem mem_controlEntered {q : Request} :
    q ∈ (controlEntered s k p f d o).table ↔ q ∈ s.table ∨ q = controlRequest s k p f d o := by
  simp [controlEntered]

/-- In a fresh state the entered request is alone under its place, and nothing but it is named so (R50). -/
theorem entry_controlEntered (hk : k.driveControl = true) (h : s.fresh) :
    (controlEntered s k p f d o).entry (controlRequest s k p f d o) := by
  obtain ⟨-, -, -, -, hlabel⟩ := driveControl_kind hk
  refine ⟨mem_controlEntered.2 (.inr rfl), fun q hq hrid => ?_, hlabel⟩
  rcases mem_controlEntered.1 hq with hold | hnew
  · exact absurd hrid (h.1 q hold)
  · exact hnew

theorem unnamed_controlEntered (h : s.fresh) : (controlEntered s k p f d o).unnamed s.nextOrder := by
  obtain ⟨-, hpred, hrest⟩ := h
  refine ⟨fun q hq => ?_, hrest⟩
  rcases mem_controlEntered.1 hq with hold | hnew
  · exact hpred q hold
  · rw [hnew]
    exact nofun

/-- With the entered request out of the table again, the table is as it was. -/
theorem table_controlEntered (h : s.fresh) :
    (controlEntered s k p f d o).table.filter (·.rid != s.nextOrder) = s.table := by
  refine (List.filter_append _ _).trans ?_
  rw [List.filter_eq_self.2 fun q hq => by simpa using h.1 q hq]
  simp [controlRequest, State.newRequest]

/-- The frame of a drive-control request carries no operands (R48). -/
theorem control_operands (hk : k.driveControl = true) (h : s.reaches k p f d o) : o = .empty := by
  have hop := operands?_of_checkFields h.1.2.1
  have hempty : operands? k f = if f.params.length = 0 then some .empty else none := by
    cases k <;> simp [Kind.driveControl] at hk <;> rfl
  rw [hempty] at hop
  split at hop
  · exact (Option.some.inj hop).symm
  · cases hop

/-- The report a drive-control request ends with (R65). -/
theorem control_report (hk : k.driveControl = true) (h : s.reaches k p f d o) (u : State) (e : Ending) :
    let rep := endingReport u (controlRequest s k p f d o) e .none
    rep.tag = f.tagNumber ∧ rep.cls = e.cls ∧ rep.detail = e.detail ∧ rep.residual = 0 := by
  have hop := control_operands hk h
  subst hop
  refine ⟨rfl, rfl, rfl, ?_⟩
  simp [endingReport, Request.residual, controlRequest, State.newRequest]

/-- A port as an entered request (R54), and then its ending (R55, R63), leave it. -/
def openedBy (f : RequestFrame) (n : Nat) (d : Drive) (pr : PortRec) : PortRec :=
  { pr with marker := if f.chain then some { member := some n, drive := d, standing := .unended } else none }

def endedWith (n : Nat) (st : Standing) (rep : Report) (pr : PortRec) : PortRec :=
  { pr with
    reports := pr.reports ++ [rep]
    marker := pr.marker.map fun m => if m.member = some n then { m with standing := st } else m }

/-- A table entry made and withdrawn leaves the port and the drive as they were changed meanwhile. -/
theorem withdrawn_entry (s : State) (f₁ f₂ : PortRec → PortRec) (g : DriveRec → DriveRec) (T : List Request) (N : Nat) :
    ({ (({ s.onPort p f₁ with table := T, nextOrder := N } : State).onDrive d g).onPort p f₂ with table := s.table } : State) =
      ({ s.onPort p (fun pr => f₂ (f₁ pr)) with nextOrder := N } : State).onDrive d g := by
  rw [← onPort_onPort f₁ f₂]
  rfl

/-- A drive-control request that ends in its arrival event leaves its report and its standing alone behind (R50, R63). -/
theorem conclude_controlEntered (hk : k.driveControl = true) (hf : s.fresh) {g : DriveRec → DriveRec}
    (hg : (g (s.drive d)).owner = (s.drive d).owner ∧ (g (s.drive d)).labelUpdate = (s.drive d).labelUpdate) (he : e.cls = .done) :
    ∃ rep, rep = endingReport ((controlEntered s k p f d o).onDrive d g) (controlRequest s k p f d o) e .none
      ∧ ((controlEntered s k p f d o).onDrive d g).conclude s.nextOrder e =
        { s.onPort p fun pr =>
            { pr with
              reports := pr.reports ++ [rep]
              marker := if f.chain then some { member := some s.nextOrder, drive := d, standing := .endedDone } else none }
          with nextOrder := s.nextOrder + 1 }.onDrive d g := by
  have hentry : ((controlEntered s k p f d o).onDrive d g).entry (controlRequest s k p f d o) := entry_controlEntered hk hf
  have hunnamed := unnamed_controlEntered (k := k) (p := p) (f := f) (d := d) (o := o) hf
  have hnamed : ((controlEntered s k p f d o).onDrive d g).unnamed s.nextOrder := by
    obtain ⟨hpred, hdrives, hrest⟩ := hunnamed
    refine ⟨hpred, fun e => ?_, hrest⟩
    by_cases hed : e = d
    · subst hed
      rw [drive_onDrive_same, controlEntered_drive, hg.1, hg.2]
      exact hdrives e
    · rw [drive_onDrive_other _ hed]
      exact hdrives e
  have hplain : ((controlEntered s k p f d o).onDrive d g).plain (controlRequest s k p f d o) :=
    ⟨hentry, rfl, rfl, rfl, hnamed.1, nofun⟩
  refine ⟨_, rfl, ?_⟩
  have hleave := leaveTable_unnamed
    (s := reported ((controlEntered s k p f d o).onDrive d g) (controlRequest s k p f d o) e)
    (r := controlRequest s k p f d o) (request?_entry hentry) hentry.2.2 rfl hnamed
  have htable : (reported ((controlEntered s k p f d o).onDrive d g) (controlRequest s k p f d o) e).table.filter
      (·.rid != (controlRequest s k p f d o).rid) = s.table := table_controlEntered hf
  have hconclude := (conclude_plain (e := e) hplain).trans hleave
  have htold : reported ((controlEntered s k p f d o).onDrive d g) (controlRequest s k p f d o) e =
      ((controlEntered s k p f d o).onDrive d g).onPort p (endedWith s.nextOrder .endedDone
        (endingReport ((controlEntered s k p f d o).onDrive d g) (controlRequest s k p f d o) e .none)) := by
    rw [reported, he]
    rfl
  rw [htable, htold] at hconclude
  have hport : ∀ rep, (s.onPort p fun pr => endedWith s.nextOrder .endedDone rep (openedBy f s.nextOrder d pr)) =
      s.onPort p fun pr => { pr with
        reports := pr.reports ++ [rep]
        marker := if f.chain then some { member := some s.nextOrder, drive := d, standing := .endedDone } else none } :=
    fun rep => onPort_congr (by cases hchain : f.chain <;> simp [openedBy, endedWith, hchain])
  refine hconclude.trans ((withdrawn_entry s (openedBy f s.nextOrder d) (endedWith s.nextOrder .endedDone _) g _ _).trans ?_)
  rw [hport]

/-- With no drive changed, an ending at arrival leaves the port alone changed. -/
theorem conclude_controlEntered_undriven (hk : k.driveControl = true) (hf : s.fresh) (he : e.cls = .done) :
    ∃ rep, rep = endingReport (controlEntered s k p f d o) (controlRequest s k p f d o) e .none
      ∧ (controlEntered s k p f d o).conclude s.nextOrder e =
        { s.onPort p fun pr =>
            { pr with
              reports := pr.reports ++ [rep]
              marker := if f.chain then some { member := some s.nextOrder, drive := d, standing := .endedDone } else none }
          with nextOrder := s.nextOrder + 1 } := by
  obtain ⟨rep, hrep, h⟩ := conclude_controlEntered (k := k) (p := p) (f := f) (d := d) (o := o) (g := fun dr => dr) hk hf
    ⟨rfl, rfl⟩ he
  rw [onDrive_id rfl] at hrep h
  rw [onDrive_id rfl] at h
  exact ⟨rep, hrep, h⟩

end

/-- Settles O24: nothing to wait for, so that the entry is withdrawn in the event that made it. -/
theorem controlDoneAtArrival : Obligations.ControlDoneAtArrival := by
  intro k p f c d o s hc h hm hq hf hk
  have hcontrol : k.driveControl = true := by rcases hk with rfl | ⟨rfl, -⟩ <;> rfl
  have hclear : k ≠ .clearFault := by rcases hk with rfl | ⟨rfl, -⟩ <;> decide
  have hbegin : (controlEntered s k p f d o).beginControl (controlRequest s k p f d o) =
      (controlEntered s k p f d o, some (Ending.make .done .none)) := by
    rcases hk with rfl | ⟨rfl, hnone⟩
    · show State.beginStart _ d = _
      simp only [State.beginStart, controlEntered_drive, h.2.1]
    · have hawaits : (controlEntered s .synchronize p f d o).awaited (controlRequest s .synchronize p f d o) = [] :=
        (awaited_controlEntered rfl _).trans hnone
      show State.beginSync _ _ = _
      rw [State.beginSync, hawaits]
      rfl
  obtain ⟨rep, hrep, hconclude⟩ := conclude_controlEntered_undriven (p := p) (f := f) (d := d) (o := o)
    (e := Ending.make .done .none) hcontrol hf rfl
  have hclosed : State.quiet { s.onPort p fun pr =>
      { pr with
        reports := pr.reports ++ [rep]
        marker := if f.chain then some { member := some s.nextOrder, drive := d, standing := .endedDone } else none }
      with nextOrder := s.nextOrder + 1 } := hq
  refine ⟨rep, ?_, hrep ▸ control_report hcontrol h.1 _ _⟩
  rw [exec_control_ends hc hcontrol h.1 (driveChecks_passes h hclear) hm hbegin, hconclude, close_quiet hclosed]

section
variable {s t : State} {p : Port} {f : RequestFrame} {d : Drive} {o : Operands} {k : Kind} {c : Instr} {r : Request}

/-- START DRIVE meets no check at a drive that is not FAULTED and is clear for the port (R47). -/
theorem driveChecks_startDrive (hs : (s.drive d).state ≠ .faulted) (hc : (s.drive d).clear p) :
    s.driveChecks p d .startDrive f o = none := by
  obtain ⟨hown, hattn, hdef⟩ := hc
  have hfilter : (s.drive d).unit.owner.filter (· != p) = none := by rcases hown with h | h <;> simp [h]
  simp [State.driveChecks, hs, hfilter, hattn, hdef, State.stoppingWindows, Kind.driveUsing, Kind.tableEntry, Kind.driveControl,
    matching_unwindowed (k := .startDrive) rfl, Kind.writeClass]

/-- A waiting START DRIVE of a drive STOPPED or STOPPING joins the start list, once (R20, R23). -/
theorem beginStart_joins (hs : (s.drive d).state = .stopped ∨ (s.drive d).state = .stopping) : s.beginStart d =
    ({ s with startList := if d ∈ s.startList then s.startList else s.startList ++ [d] }, none) := by
  have hjoin : s.joinStartList d = { s with startList := if d ∈ s.startList then s.startList else s.startList ++ [d] } := by
    unfold State.joinStartList
    by_cases hd : d ∈ s.startList <;> simp [hd]
  rcases hs with hs | hs <;> simp only [State.beginStart, hs, hjoin]

/-- The one SYNCHRONIZE to be settled, nothing following it (R153). -/
theorem close_settled {b : State} {os : SyncOutcomes} (hw : s.buffer.waiters = []) (hs : s.settleSync? [] = some (t, os))
    (ht : t.quiet) : b.close s = t.flush := by
  have hstep : ∀ q : TestPlan, s.settleStep [] q = some (t, os, q.after s t false) := fun q => by
    simp [State.settleStep, grantBuffer?_none hw, hs]
  have hnext : ∀ q : TestPlan, t.settleStep os q = none := fun q => by
    obtain ⟨⟨hwait, hsettled, hqueue⟩, hstart⟩ := ht
    simp [State.settleStep, grantBuffer?_none hwait, settleSync?_none hsettled, nextDecision_none hqueue, hstart]
  simp [State.close, State.settle, State.settleWith, State.settleBy, hstep, hnext]

/-- A plain request that has been no arm owner ends in a class other than DONE: its report, its standing, and what it held
given back (R56, R63). -/
theorem endBroken_plain (h : s.plain r) (ha : r.reachedArm = false) (e : Ending) (body : Body) : s.endBroken r e body =
    { givenBack s r with
      ports := (s.onPort r.port (endedWith r.rid .endedOther (endingReport s r e body))).ports } := by
  have htold : ((s.reportEnding r e body).reportAfter r).markStanding r.port r.rid .endedOther =
      s.onPort r.port (endedWith r.rid .endedOther (endingReport s r e body)) := by
    simp only [State.reportAfter, ha, Bool.false_eq_true, if_false, State.markStanding, State.reportEnding, State.queueReport,
      onPort_onPort]
    rfl
  have hback := givenBack_congr (s := s) (r := r) (q := r)
    (t := s.onPort r.port (endedWith r.rid .endedOther (endingReport s r e body))) rfl rfl rfl rfl
  have hleave := leaveTable_unfolded (s := s.onPort r.port (endedWith r.rid .endedOther (endingReport s r e body)))
    (request?_entry h.1) h.1.2.2 (.inl h.2.1)
  unfold State.endBroken
  dsimp only
  have hchain := breakChain_none (s := s.onPort r.port (endedWith r.rid .endedOther (endingReport s r e body))) h.2.2.2.2.1
  rw [htold, hchain, hleave, hback]

/-- One settled SYNCHRONIZE with no deferred record ends DONE (R153). -/
theorem settleSync?_done (hs : s.settled = [r]) (hr : s.plain r) (hx : ofPort (s.drive r.drive).deferred r.port = none)
    (hnext : (s.conclude r.rid (Ending.make .done .none)).settled = []) :
    ∃ os, s.settleSync? [] = some (s.conclude r.rid (Ending.make .done .none), os) := by
  have hconclude : s.conclude r.rid (Ending.make .done .none) = s.concludeDone r.rid := by
    rw [conclude_plain_eq hr, concludeDone_single (plain_single hr)]
  have hnext' : (s.concludeDone r.rid).settled = [] := hconclude ▸ hnext
  obtain ⟨n, hn⟩ : ∃ n, s.table.length = n + 1 := Nat.exists_eq_succ_of_ne_zero (List.length_pos_of_mem hr.1.1).ne'
  have hreports : ∀ os ended, State.settleReports n os ended (s.concludeDone r.rid) = (s.concludeDone r.rid, os, ended) :=
    fun os ended => by cases n <;> simp [State.settleReports, hnext']
  have houtcome : s.syncOutcome [] r = none := hx
  refine ⟨noteOutcome [] r none, ?_⟩
  rw [conclude_eq_released (plain_single hr)]
  simp only [State.settleSync?, hs, hn, State.settleReports, houtcome, hreports]
  rfl

/-- One settled SYNCHRONIZE with a deferred record ends DEFERRED with it as body, and the record is cleared (R153). -/
theorem settleSync?_deferred {x : DeferredRec} (hs : s.settled = [r]) (hr : s.plain r)
    (hx : ofPort (s.drive r.drive).deferred r.port = some x)
    (hnext : (s.endBroken r (Ending.make .deferred .none) (.deferred x)).settled = []) :
    ∃ os, s.settleSync? [] =
      some ((s.endBroken r (Ending.make .deferred .none) (.deferred x)).clearDeferred r.port r.drive, os) := by
  obtain ⟨n, hn⟩ : ∃ n, s.table.length = n + 1 := Nat.exists_eq_succ_of_ne_zero (List.length_pos_of_mem hr.1.1).ne'
  have hreports : ∀ os ended, State.settleReports n os ended (s.endBroken r (Ending.make .deferred .none) (.deferred x)) =
      (s.endBroken r (Ending.make .deferred .none) (.deferred x), os, ended) :=
    fun os ended => by cases n <;> simp [State.settleReports, hnext]
  have houtcome : s.syncOutcome [] r = some x := hx
  refine ⟨noteOutcome [] r (some x), ?_⟩
  simp only [State.settleSync?, hs, hn, State.settleReports, houtcome, hreports]
  rfl

/-- The ending of a settled SYNCHRONIZE with its body, as one without and the report's body put in. -/
theorem endBroken_bodied (hr : s.plain r) (ha : r.reachedArm = false) {e : Ending} (hc : e.cls ≠ .done) (body : Body) :
    s.endBroken r e body = (s.conclude r.rid e).onPort r.port fun pr => { pr with
      reports := (s.port r.port).reports ++ [endingReport s r e body] } := by
  have hconclude : s.conclude r.rid e = s.endBroken r e .none := by
    obtain ⟨hentry, he, hd, -⟩ := hr
    simp only [State.conclude, request?_entry hentry, he, hd, hentry.2.2, hc, Bool.false_eq_true, if_false, or_self]
  have hports : ((s.onPort r.port (endedWith r.rid .endedOther (endingReport s r e .none))).onPort r.port fun pr => { pr with
      reports := (s.port r.port).reports ++ [endingReport s r e body] }) =
        s.onPort r.port (endedWith r.rid .endedOther (endingReport s r e body)) := by
    rw [onPort_onPort]
    exact onPort_congr rfl
  rw [hconclude, endBroken_plain hr ha, endBroken_plain hr ha, ← hports]
  generalize givenBack s r = t
  rfl

/-- START DRIVE of a drive that cannot start yet joins the start list (R20, R21, R23). -/
theorem startDrive_joins (hc : requestCommand .startDrive p f = some c) (h : s.reaches .startDrive p f d o)
    (hclear : (s.drive d).clear p) (hm : (s.port p).marker = none) (hq : s.quiet)
    (hst : (s.drive d).state = .stopped ∨ (s.drive d).state = .stopping)
    (hcannot : s.gateOpen = true → startingCount s < 2 → mayStart (s.drive d) = false) :
    exec c s = .next (State.flush { controlEntered s .startDrive p f d o with
      startList := if d ∈ s.startList then s.startList else s.startList ++ [d] }) := by
  have hdenied := driveChecks_startDrive (f := f) (o := o) (by rcases hst with hs | hs <;> simp [hs]) hclear
  have hbegin := beginStart_joins (s := controlEntered s .startDrive p f d o) (d := d) hst
  have hentered := quiet_controlEntered (s := s) (p := p) (f := f) (d := d) (o := o) (k := .startDrive) rfl hq nofun
  have hstart := startable_eq_none.1 hq.2
  rw [exec_control_waits hc rfl h hdenied hm hbegin]
  refine congrArg Host.Outcome.next (close_quiet ⟨hentered.1, startable_eq_none.2 fun hg hn e he => ?_⟩)
  have hmem : e ∈ s.startList ∨ e = d := by
    by_cases hd : d ∈ s.startList
    · exact .inl (by simpa [controlEntered, hd] using he)
    · simpa [controlEntered, hd] using he
  rcases hmem with hmem | rfl
  · exact hstart hg hn e hmem
  · exact hcannot hg hn

/-- START DRIVE of a drive that can start, nobody ahead of it able to, starts it (R21). -/
theorem startDrive_starts (hc : requestCommand .startDrive p f = some c) (h : s.reaches .startDrive p f d o)
    (hclear : (s.drive d).clear p) (hm : (s.port p).marker = none) (hq : s.quiet) (hst : (s.drive d).state = .stopped)
    (hcan : mayStart (s.drive d) = true) (hgate : s.gateOpen = true) (hcount : startingCount s < 2) :
    exec c s = .next (State.flush (State.onDrive
      { controlEntered s .startDrive p f d o with gateOpen := false, gapTimer := some Config.gapTime } d fun dr =>
        { dr with state := .starting, motor := .accelerating, spinTimer := some Config.spinTime })) := by
  have hdenied := driveChecks_startDrive (f := f) (o := o) (by simp [hst]) hclear
  have hbegin := beginStart_joins (s := controlEntered s .startDrive p f d o) (d := d) (.inl hst)
  have hidle := (quiet_controlEntered (s := s) (p := p) (f := f) (d := d) (o := o) (k := .startDrive) rfl hq nofun).1
  have hcannot := startable_eq_none.1 hq.2 hgate hcount
  have hout : d ∉ (controlEntered s .startDrive p f d o).startList := fun hd => by simp [hcannot d hd] at hcan
  have hrest : (s.startList ++ [d]).filter (· != d) = s.startList := by
    rw [List.filter_append, List.filter_eq_self.2 fun e he => by simpa using ne_of_mem_of_not_mem he hout]
    simp
  have hnone : s.startList.find? (fun e => mayStart (s.drive e)) = none :=
    List.find?_eq_none.2 fun e he => by simp [hcannot e he]
  have hfind : (s.startList ++ [d]).find? (fun e => mayStart (s.drive e)) = some d := by
    simp [List.find?_append, hnone, hcan]
  rw [exec_control_waits hc rfl h hdenied hm hbegin, if_neg hout]
  generalize hu : controlEntered s .startDrive p f d o = u at *
  have hstart : State.startable { u with startList := u.startList ++ [d] } = some d := by
    rw [startable_eq, if_pos]
    · subst hu
      exact hfind
    · subst hu
      exact ⟨hgate, hcount⟩
  have hlist : u.startList = s.startList := by rw [← hu]; rfl
  have hidle' : State.idle { u with startList := u.startList ++ [d] } := hidle
  rw [close_start hidle' hstart]
  simp only [State.beginStartOf, hlist, hrest]

end

/-- Settles O25: each kind of wait by the drive's state, and the settling of one SYNCHRONIZE. -/
theorem controlWaits : Obligations.ControlWaits := by
  refine ⟨fun k p f c d o s hc h hclear hm hq => ⟨?_, ?_, ?_, ?_⟩, fun b s t r hw hs hr ha ht => ⟨fun hx htc => ?_, fun x hx htc => ?_⟩⟩
  · rintro rfl hst
    refine startDrive_joins hc h hclear hm hq (by tauto) fun hg hn => ?_
    rcases hst with hst | ⟨-, hg' | hpack | hdoor | hn'⟩
    · simp [mayStart, hst]
    · exact absurd hg (by simp [hg'])
    · simp [mayStart, hpack]
    · simp [mayStart, hdoor]
    · exact absurd hn (Nat.not_lt.2 hn')
  · rintro rfl hst hpack hdoor hgate hcount
    exact startDrive_starts hc h hclear hm hq hst (by simp [mayStart, hst, hpack, hdoor]) hgate hcount
  · rintro rfl hst
    have hdenied := driveChecks_startDrive (f := f) (o := o) (by rcases hst with hs | hs <;> simp [hs]) hclear
    have hbegin : (controlEntered s .startDrive p f d o).beginStart d = (controlEntered s .startDrive p f d o, none) := by
      rcases hst with hs | hs <;> simp only [State.beginStart, controlEntered_drive, hs]
    have hentered := quiet_controlEntered (s := s) (p := p) (f := f) (d := d) (o := o) (k := .startDrive) rfl hq nofun
    rw [exec_control_waits hc rfl h hdenied hm hbegin, close_quiet hentered]
    rfl
  · rintro rfl hst hawaits
    obtain ⟨hown, hattn, hdef⟩ := hclear
    have hdenied := driveChecks_ready (k := .synchronize) (f := f) (o := o) hst (.inr hown) hattn hdef rfl rfl nofun nofun
    have hbegin : (controlEntered s .synchronize p f d o).beginSync (controlRequest s .synchronize p f d o) =
        (controlEntered s .synchronize p f d o, none) := by
      have hsome : (controlEntered s .synchronize p f d o).awaited (controlRequest s .synchronize p f d o) ≠ [] := by
        rw [awaited_controlEntered rfl]
        exact hawaits
      rw [State.beginSync, if_neg (by simpa using hsome)]
    rw [exec_control_waits hc rfl h hdenied hm hbegin, close_quiet (quiet_controlEntered rfl hq fun _ => hawaits)]
    rfl
  · subst htc
    obtain ⟨os, hsettle⟩ := settleSync?_done hs hr hx ht.1.2.1
    exact close_settled hw hsettle ht
  · have hended := endBroken_bodied hr ha (e := Ending.make .deferred .none) nofun (.deferred x)
    have htc : t = (s.endBroken r (Ending.make .deferred .none) (.deferred x)).clearDeferred r.port r.drive := by
      rw [htc, hended]
      rfl
    subst htc
    obtain ⟨os, hsettle⟩ := settleSync?_deferred hs hr hx ht.1.2.1
    exact close_settled hw hsettle ht

end Sys2Proof.Proofs

/-! ### CLEAR FAULT as it arrives (R40) -/

namespace Sys2Proof.Proofs
open Sys2Proof Sys2Proof.Machine Sys2Proof.Laws

section
variable {s t : State} {p : Port} {f : RequestFrame} {d : Drive} {o : Operands} {why : Detail}

/-- CLEAR FAULT meets no check at a drive clear for the port but its own test (R40, R47). -/
theorem driveChecks_clearFault (hc : (s.drive d).clear p) :
    s.driveChecks p d .clearFault f o = (s.drive d).clearRefusal.map .clear := by
  obtain ⟨hown, hattn, hdef⟩ := hc
  have hfilter : (s.drive d).unit.owner.filter (· != p) = none := by rcases hown with h | h <;> simp [h]
  simp [State.driveChecks, hfilter, hattn, hdef, State.stoppingWindows, matching_unwindowed (k := .clearFault) rfl,
    Kind.writeClass]

/-- A CLEAR FAULT whose test fails is refused without an entry (R40, R49). -/
theorem exec_clearFault_refused (h : s.reaches .clearFault p f d o) (hc : (s.drive d).clear p) (hm : (s.port p).marker = none)
    (hw : (s.drive d).clearRefusal = some why) :
    ∃ rep, exec (.clearFault p f) s = .next (s.answer p rep) ∧ rep.tag = f.tagNumber ∧ rep.cls = .refused ∧ rep.detail = why := by
  refine ⟨denialReport s p Kind.clearFault.code (some .clearFault) f (.clear why), ?_, rfl, rfl, rfl⟩
  show s.live _ = _
  rw [live_powered (reaches_powered h), arrival_reaches h rfl, driveChecks_clearFault hc, hw]
  have hclosed : (s.onPort p fun pr => { pr with marker := none }) = s := onPort_id (by rw [← hm])
  have hdeny : s.deny p Kind.clearFault.code (some .clearFault) f (.clear why) = State.answer
      (s.onPort p fun pr => { pr with marker := none }) p
        (denialReport s p Kind.clearFault.code (some .clearFault) f (.clear why)) := rfl
  rw [hclosed] at hdeny
  exact congrArg Host.Outcome.next hdeny

theorem clearRefusal_collected {dr : DriveRec} {x : FaultRecord} (hs : dr.state = .faulted) (hf : dr.fault = some x)
    (hx : x.collected = true) : dr.clearRefusal = none := by
  simp [DriveRec.clearRefusal, hs, hf, hx]

/-- Where the CLEAR FAULT is the only request of a drive without owner and reservation, the stop it makes parks it (R40). -/
theorem beginClear_coasting (hf : s.fresh) (hr : (s.drive d).clearRefusal = none) (hm : (s.drive d).motor = .coasting)
    (hu : (s.drive d).unit.owner = none) (hun : s.unused d) :
    (controlEntered s .clearFault p f d o).beginClear s.nextOrder d =
      ((controlEntered s .clearFault p f d o).onDrive d fun dr => parked { dr with fault := none }, none) := by
  obtain ⟨htable, howner, hlabel⟩ := hun
  have hmem : ∀ q ∈ (controlEntered s .clearFault p f d o).table, q.drive = d → q = controlRequest s .clearFault p f d o := by
    intro q hq hqd
    exact (mem_controlEntered.1 hq).resolve_left fun hold => htable q hold hqd
  have hearly : ∀ r, ((controlEntered s .clearFault p f d o).onDrive d fun dr => { dr with fault := none }).request?
      s.nextOrder = some r → r.earlyEnded = false := fun r hreq => by
    have hentry := entry_controlEntered (k := .clearFault) (p := p) (f := f) (d := d) (o := o) rfl hf
    have hfound := (request?_onDrive rfl _).symm.trans hreq
    have hown : (controlEntered s .clearFault p f d o).request? s.nextOrder = some (controlRequest s .clearFault p f d o) :=
      request?_entry hentry
    rw [← Option.some.inj (hown.symm.trans hfound)]
    rfl
  have hstop := stopDrive_alone (s := (controlEntered s .clearFault p f d o).onDrive d fun dr => { dr with fault := none })
    (d := d) (n := s.nextOrder) (fun q hq hqd => by rw [hmem q hq hqd]; rfl) hearly
    (by rw [drive_onDrive_same]; exact howner) (by rw [drive_onDrive_same]; exact hlabel)
  have hfree : ((((controlEntered s .clearFault p f d o).onDrive d fun dr => { dr with fault := none }).onDrive d parked).drive
      d).unit.owner = none := by
    rw [drive_onDrive_same, drive_onDrive_same]
    exact hu
  rw [loseReservation_none hfree, onDrive_onDrive] at hstop
  simp only [State.beginClear, controlEntered_drive, hr, hm, hstop]

end

/-- Settles O27: the four ways of the motor and the clearing, and the two refusals. -/
theorem clearFaultActs : Obligations.ClearFaultActs := by
  intro p f d o s h hc hm hq hfresh
  refine ⟨fun x hs hf hx => ?_, fun x hs hf hx => ?_, fun hs => ?_⟩
  · have hclear := clearRefusal_collected hs hf hx
    have hdenied : s.driveChecks p d .clearFault f o = none := by rw [driveChecks_clearFault hc, hclear]; rfl
    have hentered := quiet_controlEntered (s := s) (p := p) (f := f) (d := d) (o := o) (k := .clearFault) rfl hq nofun
    refine ⟨fun hmot hcl => ?_, fun hmot hcl => ?_, fun hmot ho hun => ?_, fun hmot ho hout => ?_⟩
    · have hbegin : (controlEntered s .clearFault p f d o).beginClear s.nextOrder d = ((controlEntered s .clearFault p f d o).onDrive d
          fun dr => { dr.recalibrate with clearing := true }, none) := by
        simp only [State.beginClear, controlEntered_drive, hclear, hmot, hcl, Bool.false_eq_true, if_false]
      rw [exec_control_waits (k := .clearFault) rfl rfl h hdenied hm hbegin, close_quiet (quiet_onDrive_busy hentered rfl
        (by simp [DriveRec.armFree, DriveRec.recalibrate, hs]) rfl rfl rfl)]
      rfl
    · have hbegin : (controlEntered s .clearFault p f d o).beginClear s.nextOrder d =
          (controlEntered s .clearFault p f d o, none) := by
        simp only [State.beginClear, controlEntered_drive, hclear, hmot, hcl, if_true]
      rw [exec_control_waits (k := .clearFault) rfl rfl h hdenied hm hbegin, close_quiet hentered]
      rfl
    · have hstill : (controlEntered s .clearFault p f d o).onDrive d (fun dr => parked { dr with fault := none }) =
          (controlEntered s .clearFault p f d o).onDrive d fun dr =>
            { dr.still with fault := none, state := .stopping, motor := .coasting } :=
        onDrive_congr (by simp [parked, DriveRec.still, hun.2.1])
      rw [exec_control_waits (k := .clearFault) rfl rfl h hdenied hm (beginClear_coasting hfresh hclear hmot ho hun),
        close_quiet (quiet_onDrive hentered rfl (fun ha => by simp [DriveRec.armFree, parked] at ha)
          (by simp [parked, hs]) fun _ hst => by simp [mayStart, parked] at hst), hstill]
      rfl
    · have hlose : ((controlEntered s .clearFault p f d o).onDrive d fun dr =>
          { dr with fault := none, state := .stopped }).loseReservation d = (controlEntered s .clearFault p f d o).onDrive d
            fun dr => { dr with fault := none, state := .stopped } :=
        loseReservation_none (by rw [drive_onDrive_same]; exact ho)
      have hbegin : (controlEntered s .clearFault p f d o).beginClear s.nextOrder d = ((controlEntered s .clearFault p f d o).onDrive d
          fun dr => { dr with fault := none, state := .stopped }, some (Ending.make .done .none)) := by
        simp only [State.beginClear, controlEntered_drive, hclear, hmot, hlose]
      obtain ⟨rep, hrep, hconclude⟩ := conclude_controlEntered (p := p) (f := f) (d := d) (o := o) (k := .clearFault)
        (g := fun dr => { dr with fault := none, state := .stopped }) (e := Ending.make .done .none) rfl hfresh ⟨rfl, rfl⟩ rfl
      refine ⟨rep, ?_, hrep ▸ control_report rfl h _ _⟩
      have hclosed : State.quiet ({ s.onPort p fun pr =>
          { pr with
            reports := pr.reports ++ [rep]
            marker := if f.chain then some { member := some s.nextOrder, drive := d, standing := .endedDone } else none }
          with nextOrder := s.nextOrder + 1 }.onDrive d fun dr => { dr with fault := none, state := .stopped }) :=
        quiet_onDrive (s := { s.onPort p fun pr => { pr with reports := _, marker := _ } with nextOrder := s.nextOrder + 1 }) hq rfl
          (fun ha => by simp [DriveRec.armFree] at ha)
          ⟨nofun, fun hst => nomatch (hs.symm.trans hst : DriveState.faulted = .starting)⟩ fun hd => absurd hd hout
      rw [exec_control_ends (k := .clearFault) rfl rfl h hdenied hm hbegin, hconclude, close_quiet hclosed]
      rfl
  · exact exec_clearFault_refused h hc hm (by simp [DriveRec.clearRefusal, hs, hf, hx])
  · exact exec_clearFault_refused h hc hm (by simp [DriveRec.clearRefusal, hs])

end Sys2Proof.Proofs

/-! ### Requests that read records (R39, R42, R69, R137, R183) -/

namespace Sys2Proof.Proofs
open Sys2Proof Sys2Proof.Machine Sys2Proof.Laws

section
variable {s : State} {p : Port} {f : RequestFrame} {d : Drive} {o : Operands} {k : Kind}

/-- The free alternates are those that no entry of the map names (R115). -/
theorem freeIndices_length {names : Nat → MapEntry → Bool} (ha : ∀ k h j x, names k (.assign h j x) = decide (j = k))
    (hr : ∀ k j, names k (.retire j) = decide (j = k)) (es : List MapEntry) :
    (freeIndices es).length = ((List.range 128).filter fun k => !(es.any (names k))).length := by
  have hnames : ∀ k, names k = fun e : MapEntry => e.index == k := fun k => funext fun e => by
    cases e with
    | assign h j x => rw [ha]; rfl
    | retire j => rw [hr]; rfl
  have hfree : freeIndices es = (List.range 128).filter fun k => !(es.any (names k)) :=
    List.filter_congr fun k hk => by simp [isFreeIndex, hnames, List.mem_range.1 hk]
  rw [hfree]

theorem insertBy_length {α : Type} (key : α → Nat) (x : α) (l : List α) : (insertBy key x l).length = l.length + 1 := by
  induction l with
  | nil => rfl
  | cons y l ih =>
    rw [insertBy]
    split <;> simp [ih]

/-- The queue of a drive: its queued requests, and its label update when that is queued (R73). -/
theorem queue_length (s : State) (d : Drive) {b : Bool}
    (hb : b = true ↔ ∃ u, (s.drive d).labelUpdate = some u ∧ u.state = .queued) :
    let n := (s.table.filter fun q => decide (q.drive = d) && decide (q.state = .queued)).length
    (s.queue d).length = if b then n + 1 else n := by
  unfold State.queue
  cases hl : (s.drive d).labelUpdate with
  | none => simp [hl] at hb; simp [hb]
  | some u =>
    by_cases hu : u.state = .queued
    · have htrue : b = true := hb.2 ⟨u, hl, hu⟩
      simp [hu, htrue, insertBy_length]
    · have hfalse : b = false := by simpa [hl, hu] using hb
      simp [hu, hfalse]

/-- A request that names its drive and uses none is answered from the records (R47). -/
theorem exec_unused {acc : State → Drive → Operands → State} (h : s.reaches k p f d o) (hu : k.carriesUnit = true)
    (h1 : k.driveUsing = false) (h2 : k.windowed = false) (h3 : k.writeClass = false) (h4 : k ≠ .formatTrack)
    (h5 : k ≠ .clearFault) : s.live (s.arrival p k f acc) = .next (acc s d o) := by
  rw [live_powered (reaches_powered h), arrival_reaches h hu, driveChecks_unused h1 h2 h3 h4 h5]

end

/-- Settles O30: each request's own record, field by field. -/
theorem recordsRead : Obligations.RecordsRead := by
  intro p f d o s dr es names free updating waiting value switch g pr
  have hfree : (freeIndices es).length = free := freeIndices_length (fun _ _ _ _ => rfl) (fun _ _ => rfl) es
  have hupdating : updating = true ↔ ∃ u, (s.drive d).labelUpdate = some u ∧ u.state = .queued := by
    show (match (s.drive d).labelUpdate with
      | some u => decide (u.state = .queued)
      | none => false) = true ↔ _
    cases (s.drive d).labelUpdate <;> simp
  refine ⟨fun h => ?_, fun h => ?_, fun h => ?_, fun h => ?_, fun h => ⟨fun x hs hx => ?_, fun hs => ?_⟩⟩
  · have hqueue : (s.queue d).length = if updating then waiting + 1 else waiting := queue_length s d hupdating
    have hin : s.startList.contains d = decide (d ∈ s.startList) := by simp
    refine (exec_unused (acc := acceptReadStatus p f) h rfl rfl rfl rfl nofun nofun).trans ?_
    rw [acceptReadStatus, State.statusOf, hin, hqueue, ← hfree]
  · rw [← hfree]
    exact exec_unused (acc := acceptReadMap p f) h rfl rfl rfl rfl nofun nofun
  · show s.live (s.arrival p .readIdentity f (acceptReadIdentity p f)) = _
    rw [live_powered h.1.1, arrival_admits h rfl rfl]
    rfl
  · show s.live (s.arrival p .readSettings f (acceptReadSettings p f)) = _
    rw [live_powered h.1.1, arrival_admits h rfl rfl]
    rfl
  · refine (exec_unused (acc := acceptReadFault p f) h rfl rfl rfl rfl nofun nofun).trans ?_
    rw [acceptReadFault, hs, hx]
  · refine (exec_unused (acc := acceptReadFault p f) h rfl rfl rfl rfl nofun nofun).trans ?_
    unfold acceptReadFault
    split
    · next hst _ => exact absurd hst hs
    · rfl

end Sys2Proof.Proofs

/-! ### The claim of a path at the claim sector (R31, R93 to R96, R126) -/

namespace Sys2Proof.Proofs
open Sys2Proof Sys2Proof.Machine Sys2Proof.Laws

section
variable {s t : State} {d : Drive} {n : Fin 24} {read : SurfaceRead} {r : Request}

/-- A sector mark at a READY drive is its arm owner's (R31). -/
theorem exec_sectorEvent_owner (hp : s.powered = true) (hm : (s.drive d).motor = .atSpeed) (hready : (s.drive d).state = .ready)
    (ho : (s.drive d).owner = some r.rid) (he : s.entry r) :
    exec (.sectorEvent d n read) s = .next (s.close ((atMark s d n).ownerSector d r n.val read)) := by
  have hmark : (s.onDrive d fun dr => { dr with sector := n.val, elapsed := 0 }) = atMark s d n := rfl
  have hstate : ((atMark s d n).drive d).state = .ready := by rw [atMark_drive]; exact hready
  have howner : (atMark s d n).owner? d = some r := by
    have ho' : ((atMark s d n).drive d).owner = some r.rid := by rw [atMark_drive]; exact ho
    simp only [State.owner?, ho']
    exact (request?_onDrive rfl _).trans (request?_entry he)
  rw [exec_sectorEvent hp hm]
  simp only [State.sectorEvent, hmark, hstate, howner]

/-- A sector mark changes no leg. -/
theorem leg_atMark (q : Request) : (atMark s d n).leg q = s.leg q :=
  leg_congr fun e => by
    by_cases hed : e = d
    · rw [hed, atMark_drive]
    · rw [atMark, drive_onDrive_other _ hed]

/-- A sector mark lets nothing follow at a drive whose arm is owned. -/
theorem quiet_atMark (h : s.quiet) (ho : (s.drive d).owner = some r.rid) : (atMark s d n).quiet :=
  quiet_onDrive_busy h rfl (by simp [DriveRec.armFree, ho]) rfl rfl rfl

/-- The claim is tried at the claim sector of a POSITIONED owner whose arm stands on cylinder (R93). -/
theorem ownerSector_claim (harm : (s.drive d).arm = .onCylinder) (hst : r.state = .positioned) (hph : r.phase = .idle)
    (hn : n.val = claimSector (s.leg r).sector) :
    (atMark s d n).ownerSector d r n.val read = (atMark s d n).claim d r := by
  have harm' : ((atMark s d n).drive d).arm = .onCylinder := by rw [atMark_drive]; exact harm
  have hn' : n.val = claimSector ((atMark s d n).leg r).sector := by rw [leg_atMark]; exact hn
  have hst' : r.state ≠ .transferring := by rw [hst]; exact nofun
  simp only [State.ownerSector, hph, hst', if_false]
  rw [if_pos ⟨harm', .inl hst, hn'⟩]

/-! #### The tests of the claim, in turn (R94) -/

theorem claim_protected (he : s.entry r) (hop : r.op = none) (hl : r.label = none) (hf : r.format = none)
    (hc : cylOf (s.leg r).track = (s.drive d).curCyl) (hw : (s.leg r).writesData = true) (hp : (s.drive d).writeProtect = true) :
    s.claim d r = s.conclude r.rid (Ending.at .ended .writeProtected (addrOf (blockOf r.addr + r.workBlock))) := by
  have haddr : r.presentAddr = addrOf (blockOf r.addr + r.workBlock) := by
    simp only [Request.presentAddr, hop, hl, hf]
    rfl
  simp only [State.claim, hc, ne_eq, not_true_eq_false, if_false, hw, hp, and_self, if_true, State.foundProtected,
    request?_entry he, hop, haddr]

theorem claim_unready (hop : r.op = none) (hdata : r.kind.isData = true) (hc : cylOf (s.leg r).track = (s.drive d).curCyl)
    (hp : (s.leg r).writesData = true → (s.drive d).writeProtect = false) (hr : r.ready = false) : s.claim d r = s := by
  have hprotect : ¬((s.leg r).writesData = true ∧ (s.drive d).writeProtect = true) := fun h => by simp [hp h.1] at h
  simp only [State.claim, hc, ne_eq, not_true_eq_false, if_false, hprotect, hdata, hop, hr, Option.isNone_none, and_self, if_true]

theorem claim_tested (hop : r.op = none) (hc : cylOf (s.leg r).track = (s.drive d).curCyl)
    (hp : (s.leg r).writesData = true → (s.drive d).writeProtect = false) (hr : r.ready = true) :
    s.claim d r = if s.suspectTest r (s.leg r) = true then s.askSparing r.rid else s.claimPath d r.rid (s.leg r) := by
  have hprotect : ¬((s.leg r).writesData = true ∧ (s.drive d).writeProtect = true) := fun h => by simp [hp h.1] at h
  simp only [State.claim, hc, ne_eq, not_true_eq_false, if_false, hprotect, hop, hr, Option.isNone_none, true_and, and_false,
    Bool.true_eq_false]

/-- The state of a request has no part in what its half becomes. -/
theorem filling_restated (r : Request) (st : ReqState) :
    ({ r with state := st } : Request).filling = { r.filling with state := st } := by
  have htakes : ({ r with state := st } : Request).takesData = r.takesData := rfl
  have hcur : ({ r with state := st } : Request).current = r.current := rfl
  unfold Request.filling
  rw [htakes, hcur]
  by_cases ht : r.takesData = true
  · rw [if_pos ht, if_pos ht]
  · rw [if_neg ht, if_neg ht]
    by_cases hempty : r.current.state = .empty
    · rw [if_pos hempty, if_pos hempty]
      unfold Request.setHalf
      dsimp only
      split <;> rfl
    · rw [if_neg hempty, if_neg hempty]

/-- What a request's record is as its leg claims a path (R94, R102, R112). -/
def claimed (r : Request) : Request := { r.filling with state := .transferring, misses := 0, phase := .claimed }

theorem claimed_keeps (r : Request) : (claimed r).rid = r.rid ∧ (claimed r).kind = r.kind ∧ (claimed r).drive = r.drive
    ∧ (claimed r).port = r.port ∧ (claimed r).earlyEffective = r.earlyEffective := by
  unfold claimed Request.filling Request.setHalf
  split
  · exact ⟨rfl, rfl, rfl, rfl, rfl⟩
  · split
    · split <;> exact ⟨rfl, rfl, rfl, rfl, rfl⟩
    · exact ⟨rfl, rfl, rfl, rfl, rfl⟩

/-- A claim granted a path (R94): the head selected, the request under way. -/
theorem claimPath_granted {l : Leg} {P₀ P₁ : PathState} (he : s.entry r) (hop : r.op = none) (hdata : r.kind.isData = true)
    (hgrant : s.grantPath r.rid = some { s with path0 := P₀, path1 := P₁ }) :
    s.claimPath d r.rid l = { (s.onDrive d fun dr => { dr with head := headOf l.track }).withRequest (claimed r) with
      path0 := P₀, path1 := P₁ } := by
  have hreq : (State.onDrive { s with path0 := P₀, path1 := P₁ } d fun dr => { dr with head := headOf l.track }).request? r.rid =
      some r := (request?_onDrive rfl _).trans (request?_entry (s := { s with path0 := P₀, path1 := P₁ }) he)
  have hin : r.inState .transferring = { r with state := .transferring } := by simp [Request.inState, hop]
  have hkind : (claimed r).kind ≠ .labelUpdate := (claimed_keeps r).2.1 ▸ he.2.2
  unfold State.claimPath
  rw [hgrant]
  dsimp only
  rw [onRequest_some hreq, hin]
  have hfilled : ({ r with state := .transferring } : Request).kind.isData = true ∧
      ({ r with state := .transferring } : Request).op.isNone = true := ⟨hdata, by simp [hop]⟩
  rw [if_pos hfilled, filling_restated]
  exact putRequest_table (r := claimed r) hkind

/-- A claim with no path to be had (R95). -/
theorem claimPath_missed {l : Leg} (he : s.entry r) (hop : r.op = none) (hgrant : s.grantPath r.rid = none) :
    s.claimPath d r.rid l = { s.withRequest { r with misses := min 7 (r.misses + 1) } with
      preference := if s.settings.preferenceMisses ≤ min 7 (r.misses + 1) ∧ r.rid ∉ s.preference then s.preference ++ [r.rid]
        else s.preference } := by
  have hkind : ({ r with misses := min 7 (r.misses + 1) } : Request).kind ≠ .labelUpdate := he.2.2
  unfold State.claimPath State.pathMiss
  rw [hgrant, request?_entry he]
  dsimp only
  rw [putRequest_table hkind]
  have hcontains : s.preference.contains r.rid = false ↔ r.rid ∉ s.preference := by simp
  by_cases hpref : s.settings.preferenceMisses ≤ min 7 (r.misses + 1) ∧ r.rid ∉ s.preference
  · rw [if_pos hpref, if_pos ⟨by simp [hop], hpref.1, hcontains.2 hpref.2⟩]
    rfl
  · rw [if_neg hpref, if_neg fun h => hpref ⟨h.2.1, hcontains.1 h.2.2⟩]
    rfl

/-- After a claim granted a path, nothing follows. -/
theorem quiet_granted {l : Leg} {P₀ P₁ : PathState} (h : s.quiet) (he : s.entry r) (ho : (s.drive d).owner = some r.rid) :
    State.quiet { (s.onDrive d fun dr => { dr with head := headOf l.track }).withRequest (claimed r) with
      path0 := P₀, path1 := P₁ } := by
  obtain ⟨hid, hkind, hdrive, hport, hearly⟩ := claimed_keeps r
  have hhead : (s.onDrive d fun dr => { dr with head := headOf l.track }).quiet :=
    quiet_onDrive_busy h rfl (by simp [DriveRec.armFree, ho]) rfl rfl rfl
  have hmoved := quiet_withRequest_moved (q := claimed r) hhead (r := r) he hid hkind hdrive hport hearly nofun nofun
  exact hmoved

/-- The event of a claim granted a path. -/
theorem close_granted {b : State} {l : Leg} {P₀ P₁ : PathState} (h : s.quiet) (he : s.entry r) (hop : r.op = none)
    (hdata : r.kind.isData = true) (ho : (s.drive d).owner = some r.rid)
    (hgrant : s.grantPath r.rid = some { s with path0 := P₀, path1 := P₁ }) :
    b.close (s.claimPath d r.rid l) = State.flush
      { (s.onDrive d fun dr => { dr with head := headOf l.track }).withRequest (claimed r) with path0 := P₀, path1 := P₁ } := by
  rw [claimPath_granted he hop hdata hgrant, close_quiet (quiet_granted h he ho)]

end

/-- Settles O51: the tests of the claim in their order, and then the path by what the two stand reserved for. -/
theorem claimMade : Obligations.ClaimMade := by
  intro d n read r s hp hm hready harm hq ho hplain hd hdata hop hlabel hformat hst hph l hn hc u
  have he : s.entry r := hplain.1
  have hu : u = atMark s d n := rfl
  have heu : u.entry r := he
  have hleg : u.leg r = l := leg_atMark r
  have hcu : cylOf (u.leg r).track = (u.drive d).curCyl := by rw [hleg, hu, atMark_drive]; exact hc
  have hprotect : (u.drive d).writeProtect = (s.drive d).writeProtect := by rw [hu, atMark_drive]
  have howner : (u.drive d).owner = some r.rid := by rw [hu, atMark_drive]; exact ho
  have hquiet : u.quiet := quiet_atMark hq ho
  have hexec : exec (.sectorEvent d n read) s = .next (s.close (u.claim d r)) := by
    rw [exec_sectorEvent_owner hp hm hready ho he, ownerSector_claim harm hst hph hn, hu]
  refine ⟨fun hw hwp => ?_, fun hwp hr => ?_, fun hwp hr hauto hkind htrial htally => ?_, fun hwp hr htally => ?_⟩
  · rw [hexec, claim_protected heu hop hlabel hformat hcu (hleg ▸ hw) (hprotect.trans hwp)]
  · rw [hexec, claim_unready hop hdata hcu (fun hw => hprotect.trans (hwp (hleg ▸ hw))) hr, close_quiet hquiet]
  · have hsuspect : u.suspectTest r (u.leg r) = true := by
      have htally' : s.settings.suspectThreshold ≤ tallyOf (u.drive r.drive).suspects (u.leg r).track := by
        rw [hleg, hd, hu, atMark_drive]
        exact htally
      have hmay : u.mayAutoSpare r = true := by
        have hauto' : u.settings.autoSpare = true := hauto
        rcases hkind with hk | ⟨hk, -⟩ <;> simp [State.mayAutoSpare, hauto', hk, htrial]
      have hwrite : r.writeLeg = true := by
        rcases hkind with hk | ⟨hk, hchk⟩
        · simp [Request.writeLeg, hk]
        · simp [Request.writeLeg, hk, hchk]
      simp only [State.suspectTest, hdata, hwrite, hmay, Bool.true_and, decide_eq_true_eq]
      exact htally'
    rw [hexec, claim_tested hop hcu (fun _ => hprotect.trans hwp) hr, if_pos hsuspect]
  · have hsuspect : ¬u.suspectTest r (u.leg r) = true := by
      intro hs
      simp only [State.suspectTest, State.mayAutoSpare, Bool.and_eq_true, decide_eq_true_eq] at hs
      obtain ⟨⟨-, ⟨hauto, -⟩, -⟩, hreached⟩ := hs
      rw [hleg, hd, hu, atMark_drive] at hreached
      exact absurd (htally hauto) (Nat.not_lt.2 hreached)
    have hclaim : u.claim d r = u.claimPath d r.rid l := by
      rw [claim_tested hop hcu (fun hw => hprotect.trans (hwp (hleg ▸ hw))) hr, if_neg hsuspect, hleg]
    rw [hexec, hclaim]
    refine ⟨fun h0 => ?_, fun h0 h1 => ?_, fun h0 h1 => ⟨fun hf0 => ?_, fun hf0 hf1 => ?_, fun hf0 hf1 => ?_⟩⟩
    · exact congrArg _ (close_granted hquiet heu hop hdata howner
        (P₀ := .claimed r.rid) (P₁ := s.path1) (if_pos h0))
    · exact congrArg _ (close_granted hquiet heu hop hdata howner
        (P₀ := s.path0) (P₁ := .claimed r.rid) ((if_neg h0).trans (if_pos h1)))
    · exact congrArg _ (close_granted hquiet heu hop hdata howner
        (P₀ := .claimed r.rid) (P₁ := s.path1) ((if_neg h0).trans ((if_neg h1).trans (if_pos hf0))))
    · exact congrArg _ (close_granted hquiet heu hop hdata howner
        (P₀ := s.path0) (P₁ := .claimed r.rid) ((if_neg h0).trans ((if_neg h1).trans ((if_neg hf0).trans (if_pos hf1)))))
    · have hgrant : u.grantPath r.rid = none :=
        (if_neg h0).trans ((if_neg h1).trans ((if_neg hf0).trans (if_neg hf1)))
      have hmissed : (u.withRequest { r with misses := min 7 (r.misses + 1) }).quiet :=
        quiet_withRequest_moved (r := r) hquiet heu rfl rfl rfl rfl rfl (by simp [hst]) (by simp [hst])
      have hclosed : State.quiet { u.withRequest { r with misses := min 7 (r.misses + 1) } with
          preference := if u.settings.preferenceMisses ≤ min 7 (r.misses + 1) ∧ r.rid ∉ u.preference then u.preference ++ [r.rid]
            else u.preference } := hmissed
      rw [claimPath_missed heu hop hgrant, close_quiet hclosed]
      rfl

end Sys2Proof.Proofs

/-! ### The sector events of a data leg, in turn (R98, R99, R101, R109 to R113) -/

namespace Sys2Proof.Proofs
open Sys2Proof Sys2Proof.Machine Sys2Proof.Laws

section
variable {s w w' : State} {d : Drive} {n : Fin 24} {m : Nat} {read : SurfaceRead} {r q q' : Request} {l old : Leg}
  {found : Sector} {b : Block}

/-- A request that works at a block of its data, and at no track upkeep. -/
abbrev dataLegged (r : Request) : Prop := r.op = none ∧ r.label = none ∧ r.format = none

theorem leg_dataLegged (h : dataLegged r) : s.leg r = dataLeg (s.drive r.drive).map.entries r := by
  obtain ⟨hop, hlabel, hformat⟩ := h
  simp [State.leg, legOf, hop, hlabel, hformat]

theorem leg_writesData (h : dataLegged r) : (s.leg r).writesData = r.writeLeg := by
  rw [leg_dataLegged h]
  rfl

theorem leg_sector (h : dataLegged r) : (s.leg r).sector = (blockOf r.addr + r.workBlock) % 24 := by
  rw [leg_dataLegged h]
  rfl

theorem workBlock_next (h : r.kind ≠ .writeAndCheck ∨ r.checking = true) : r.workBlock = r.nextBlock := by
  unfold Request.workBlock
  rw [if_neg]
  rintro ⟨hk, hc⟩
  rcases h with h | h
  · exact h hk
  · simp [hc] at h

/-- The sector of a block follows that of the block before it (R3). -/
theorem leg_sector_next (hr : dataLegged r) (hq : dataLegged q) (ha : q.addr = r.addr) (hw : q.workBlock = r.workBlock + 1)
    (hm : ((s.leg r).sector + 1) % 24 = m) : (w.leg q).sector = m := by
  rw [leg_sector hr] at hm
  rw [leg_sector hq, ha, hw]
  omega

/-- The end of a sector of a data leg is a write leg's or a read's (R98). -/
theorem exec_dataSector (h : s.onSector d r) (hdata : dataLegged r) : exec (.sectorEvent d n read) s = .next (s.close
    (if r.writeLeg = true then (atMark s d n).writeSectorEnds d r n.val (s.leg r) ((s.drive d).found (s.leg r).sector read)
    else (atMark s d n).readSectorEnds d r n.val (s.leg r) ((s.drive d).found (s.leg r).sector read))) := by
  obtain ⟨hp, hm, hready, howner, hentry, -, -, hphase, -⟩ := h
  obtain ⟨hop, hlabel, hformat⟩ := hdata
  have hfound : ((atMark s d n).drive d).found (s.leg r).sector read = (s.drive d).found (s.leg r).sector read := by
    rw [atMark_drive]
    rfl
  rw [exec_sectorEvent_owner hp hm hready howner hentry]
  simp only [State.ownerSector, hphase, State.sectorEnds, hop, hlabel, hformat, leg_atMark, hfound]

theorem adopt_untried (h : r.trial = none) : w.adopt r = w := by simp [State.adopt, h]

/-- A sector of a write leg with a good ID field is recorded (R98, R110, R111). -/
theorem writeSectorEnds_good (he : w.entry r) (hdata : dataLegged r) (ht : r.trial = none)
    (hid : idCondition found.id (w.drive d).curCyl (w.drive d).head l.sector l.expect = none) :
    w.writeSectorEnds d r m l found = if r.kind = .writeAndCheck
      then (recordedAt w d l.sector found r.blockToWrite).pairWritten d r m l
      else (recordedAt w d l.sector found r.blockToWrite).doneGood d r m l := by
  obtain ⟨hop, hlabel, hformat⟩ := hdata
  have hrecord : (w.onDrive d fun dr => dr.record ((w.drive d).underHeads l.sector)
      (w.written r (dr.recorded ((w.drive d).underHeads l.sector)) found)) = recordedAt w d l.sector found r.blockToWrite :=
    onDrive_congr (by simp [State.written, hop, hlabel, hformat])
  have hreq : (recordedAt w d l.sector found r.blockToWrite).request? r.rid = some r :=
    request?_entry (s := recordedAt w d l.sector found r.blockToWrite) he
  unfold State.writeSectorEnds
  simp only [hid, adopt_untried ht, hrecord, hreq]

/-- A sector of a read or check that is found good (R98, R109, R112, R113). -/
theorem readSectorEnds_good (he : w.entry r) (ht : r.trial = none) (hk : r.kind ≠ .writeAndCheck)
    (hread : readCondition found (w.drive d).curCyl (w.drive d).head l.sector l.expect = none) :
    w.readSectorEnds d r m l found =
      if r.kind = .readBlocks then w.readGood d r m l found.data.block
      else if r.compare = true ∧ found.data.block ≠ r.blockToWrite then w.mismatch r
      else w.doneGood d r m l := by
  unfold State.readSectorEnds
  simp only [adopt_untried ht, ite_self, hk, decide_false, Bool.false_eq_true, if_false, hread, request?_entry he]

/-- A sector of a check leg of WRITE AND CHECK that is found good (R111). -/
theorem readSectorEnds_pair (he : w.entry r) (ht : r.trial = none) (hk : r.kind = .writeAndCheck)
    (hread : readCondition found (w.drive d).curCyl (w.drive d).head l.sector l.expect = none)
    (hb : found.data.block = r.blockToWrite) : w.readSectorEnds d r m l found = w.pairChecked d r m l := by
  have hcheck : checkLegCondition (w.drive d) l found r.blockToWrite = none := by
    simp only [checkLegCondition, hread, hb, if_true]
  unfold State.readSectorEnds
  simp only [adopt_untried ht, ite_self, hk, decide_true, if_true, hcheck, request?_entry he]

/-! #### A good block's record -/

/-- A request's record after a good block of a write or check (R110, R112, R113). -/
def blockDone (r : Request) : Request :=
  { r with nextBlock := r.nextBlock + 1, blocksDone := r.nextBlock + 1, retries := 0, readTimer := none }

theorem heldUp_of_kind (h : q.kind ≠ .readBlocks) : q.heldUp = false := by simp [Request.heldUp, h]

theorem retime_unheld {wait : Option Nat} (h : q.heldUp = false) : r.retime q wait = { q with readTimer := none } := by
  simp [Request.retime, h]

theorem recovered_unfailed (h : r.failed = []) (i track : Nat) : w.recovered r i track = w := by simp [State.recovered, h]

theorem putData_done (he : w.entry r) (hk : r.kind ≠ .readBlocks) :
    w.putData r { r.advance with blocksDone := r.nextBlock + 1 } = w.withRequest (blockDone r) := by
  have hheld : ({ r.advance with blocksDone := r.nextBlock + 1 } : Request).heldUp = false := heldUp_of_kind hk
  unfold State.putData
  rw [retime_unheld hheld]
  exact putRequest_table (r := blockDone r) he.2.2

theorem entry_blockDone (he : w.entry r) : (w.withRequest (blockDone r)).entry (blockDone r) := entry_withRequest he rfl he.2.2

/-- A good block of a write or check: the last ends the request DONE, any other goes on (R110, R112, R113). -/
theorem doneGood_eq (he : w.entry r) (hk : r.kind ≠ .readBlocks) (hf : r.failed = []) (hp : r.pendingEnding = none) :
    w.doneGood d r m l = if r.nextBlock + 1 = r.count
      then (w.withRequest (blockDone r)).conclude r.rid (blockDone r).doneEnding
      else (w.withRequest (blockDone r)).goOn d r.rid m l := by
  have hreq : (w.withRequest (blockDone r)).request? r.rid = some (blockDone r) := request?_entry (entry_blockDone he)
  unfold State.doneGood
  simp only [putData_done he hk, recovered_unfailed hf, hp, hreq]

/-! #### The disk side goes on -/

/-- A sector of a leg begins where the leg's next block stands under the heads (R98). -/
theorem beginBlock_passing (he : w.entry q) (hph : q.phase = .passing) (hm : (w.leg q).sector = m)
    (hfault : (w.leg q).writesData = true → (w.drive d).writeFault = false) : w.beginBlock d q.rid m = w := by
  have h := beginBlock_again he rfl he.2.2 hph hm hfault
  rwa [withRequest_self he] at h

/-- Within a round the leg goes on along its track, or is left for the next (R99, R101). -/
theorem goOn_within (he : w.entry q) (hr : q.roundComplete = false) : w.goOn d q.rid m old =
    if (w.leg q).track = old.track then if q.ready = true then w.beginBlock d q.rid m else w.releaseLeg q.rid
    else w.nextLeg d q.rid m old := by
  unfold State.goOn
  simp only [request?_entry he, hr, Bool.false_eq_true, if_false]

/-- At the end of a round the halves turn first (R101). -/
theorem goOn_turning (he : w.entry q) (hr : q.roundComplete = true) (htoggle : w.toggle q = w') (he' : w'.entry q')
    (hid : q'.rid = q.rid) : w.goOn d q.rid m old =
    if (w'.leg q').track = old.track then if q'.ready = true then w'.beginBlock d q.rid m else w'.releaseLeg q.rid
    else w'.nextLeg d q.rid m old := by
  have hreq : w'.request? q.rid = some q' := hid ▸ request?_entry he'
  unfold State.goOn
  simp only [request?_entry he, hr, if_true, htoggle, hreq]

theorem roundComplete_eq_false (h : q.nextBlock ≠ 12 * (q.round + 1)) : q.roundComplete = false := by
  simp [Request.roundComplete, h]

theorem roundComplete_eq_true (h : q.nextBlock = 12 * (q.round + 1)) (hc : q.nextBlock < q.count) : q.roundComplete = true := by
  simp [Request.roundComplete, ← h, hc]

/-- The next block on the same track, its half ready: the leg runs on. -/
theorem goOn_steady (he : w.entry q) (hr : q.nextBlock ≠ 12 * (q.round + 1)) (htrack : (w.leg q).track = old.track)
    (hready : q.ready = true) (hph : q.phase = .passing) (hm : (w.leg q).sector = m)
    (hfault : (w.leg q).writesData = true → (w.drive d).writeFault = false) : w.goOn d q.rid m old = w := by
  rw [goOn_within he (roundComplete_eq_false hr), if_pos htrack, if_pos hready, beginBlock_passing he hph hm hfault]

end

end Sys2Proof.Proofs

/-! ### A data leg within its round and track (R98, R109 to R113) -/

namespace Sys2Proof.Proofs
open Sys2Proof Sys2Proof.Machine Sys2Proof.Laws

section
variable {s w : State} {d : Drive} {n : Fin 24} {m : Nat} {read : SurfaceRead} {r q : Request} {l old : Leg}
  {found : Sector} {b : Block} {wait : Option Nat}

/-! #### A read's record after a good block (R109) -/

theorem setHalf_eq (r : Request) (c : Bool) (h : Half) :
    r.setHalf c h = { r with half0 := if c then r.half0 else h, half1 := if c then h else r.half1 } := by
  cases c <;> rfl

/-- A read's record after a good block, but for its read timer. -/
def blockRead (r : Request) (b : Block) : Request :=
  let h := { r.current with blocks := r.current.blocks ++ [b] }
  { r with
    half0 := if r.curHalf then r.half0 else h, half1 := if r.curHalf then h else r.half1
    nextBlock := r.nextBlock + 1, retries := 0 }

theorem blockRead_eq (r : Request) (b : Block) : blockRead r b =
    { r.setHalf r.curHalf { r.current with blocks := r.current.blocks ++ [b] } with
      nextBlock := r.nextBlock + 1, retries := 0 } := by
  rw [setHalf_eq]
  rfl

theorem blockRead_untimed (r : Request) (b : Block) : { blockRead r b with readTimer := none } =
    { r.setHalf r.curHalf { r.current with blocks := r.current.blocks ++ [b] } with
      nextBlock := r.nextBlock + 1, retries := 0, readTimer := none } := by
  rw [setHalf_eq]
  rfl

theorem advance_read (r : Request) (b : Block) :
    (r.setHalf r.curHalf { r.current with blocks := r.current.blocks ++ [b] }).advance = blockRead r b := by
  rw [setHalf_eq]
  rfl

theorem current_blockRead (r : Request) (b : Block) :
    (blockRead r b).current = { r.current with blocks := r.current.blocks ++ [b] } := by
  cases hc : r.curHalf <;> simp [blockRead, Request.current, Request.half, hc]

theorem round_blockRead (r : Request) (b : Block) : (blockRead r b).round = r.round := by
  rw [Request.round, current_blockRead]
  rfl

/-- A read that fills its half is ready for its next block (R102). -/
theorem ready_blockRead (hk : r.kind = .readBlocks) (hfill : r.current.state = .filling) (b : Block) :
    (blockRead r b).ready = true := by
  have hcur : (blockRead r b).current.state = .filling := (congrArg Half.state (current_blockRead r b)).trans hfill
  have htakes : (blockRead r b).takesData = false := by simp [Request.takesData, blockRead, hk]
  simp [Request.ready, htakes, hcur]

/-- A half being filled holds up no read but at its last block (R106). -/
theorem heldUp_of_filling (hs : q.current.state = .filling) (hc : q.nextBlock ≠ q.count) : q.heldUp = false := by
  cases hh : q.curHalf <;> simp [Request.current, Request.half, hh] at hs <;> simp [Request.heldUp, hs, hc]

/-- Timing a read changes its timer alone (R106). -/
theorem retime_eq (r q : Request) (wait : Option Nat) : ∃ t, r.retime q wait = { q with readTimer := t } := by
  unfold Request.retime
  split
  · exact ⟨_, rfl⟩
  · split
    · exact ⟨q.readTimer, rfl⟩
    · exact ⟨_, rfl⟩

theorem putData_read (he : w.entry r) (b : Block) :
    w.putData r (blockRead r b) = w.withRequest (r.retime (blockRead r b) (w.port r.port).settings.waitTimer) := by
  unfold State.putData
  obtain ⟨t, ht⟩ := retime_eq r (blockRead r b) (w.port r.port).settings.waitTimer
  rw [ht]
  exact putRequest_table (r := { blockRead r b with readTimer := t }) he.2.2

/-- The last good block of a read: the disk side is done (R109). -/
theorem readGood_last (he : w.entry r) (hf : r.failed = []) (hp : r.pendingEnding = none) (hc : r.nextBlock + 1 = r.count) :
    w.readGood d r m l b =
      w.withRequest { r.retime (blockRead r b) (w.port r.port).settings.waitTimer with phase := .idle } := by
  obtain ⟨t, ht⟩ := retime_eq r (blockRead r b) (w.port r.port).settings.waitTimer
  have hentry : (w.withRequest { blockRead r b with readTimer := t }).entry { blockRead r b with readTimer := t } :=
    entry_withRequest he rfl he.2.2
  have hreq : (w.withRequest { blockRead r b with readTimer := t }).request? r.rid = some { blockRead r b with readTimer := t } :=
    request?_entry hentry
  unfold State.readGood
  simp only [advance_read, putData_read he, recovered_unfailed hf, hp, hc, if_true, ht]
  rw [onRequest_some hreq, putRequest_table (r := { blockRead r b with readTimer := t, phase := .idle }) he.2.2]
  exact withRequest_withRequest rfl

/-- Any other good block of a read that fills its half. -/
theorem readGood_on (he : w.entry r) (hf : r.failed = []) (hp : r.pendingEnding = none) (hs : r.current.state = .filling)
    (hc : r.nextBlock + 1 < r.count) : w.readGood d r m l b =
      (w.withRequest { blockRead r b with readTimer := none }).goOn d r.rid m l := by
  have hheld : (blockRead r b).heldUp = false :=
    heldUp_of_filling (by rw [current_blockRead]; exact hs) (Nat.ne_of_lt hc)
  unfold State.readGood
  simp only [advance_read, putData_read he, recovered_unfailed hf, hp, Nat.ne_of_lt hc, if_false, retime_unheld hheld]

/-! #### The sector events of a leg that runs on -/

/-- Recording where the heads stand, at a sector mark. -/
theorem recordedAt_atMark (sec : Nat) (found : Sector) (b : Block) : recordedAt (atMark s d n) d sec found b =
    (atMark s d n).onDrive d fun dr => dr.record ((s.drive d).underHeads sec)
      (overwrite ((s.drive d).recorded ((s.drive d).underHeads sec)) found b) :=
  onDrive_congr (by rw [atMark_drive]; rfl)

/-- The sector of a write leg whose ID field is good. -/
theorem exec_writeSector (h : s.onSector d r) (hdata : dataLegged r) (ht : r.trial = none) (hw : r.writeLeg = true)
    (hid : idCondition ((s.drive d).found (s.leg r).sector read).id (s.drive d).curCyl (s.drive d).head (s.leg r).sector
      (s.leg r).expect = none) :
    exec (.sectorEvent d n read) s = .next (s.close
      (let v := recordedAt (atMark s d n) d (s.leg r).sector ((s.drive d).found (s.leg r).sector read) r.blockToWrite
      if r.kind = .writeAndCheck then v.pairWritten d r n.val (s.leg r) else v.doneGood d r n.val (s.leg r))) := by
  have hentry : (atMark s d n).entry r := (onSector_facts h).1
  rw [exec_dataSector h hdata, if_pos hw, writeSectorEnds_good hentry hdata ht (by rw [atMark_drive]; exact hid)]

/-- The sector of a read or check that is good. -/
theorem exec_readSector (h : s.onSector d r) (hdata : dataLegged r) (hw : r.writeLeg = false)
    (hread : readCondition ((s.drive d).found (s.leg r).sector read) (s.drive d).curCyl (s.drive d).head (s.leg r).sector
      (s.leg r).expect = none) :
    exec (.sectorEvent d n read) s = .next (s.close
      ((atMark s d n).readSectorEnds d r n.val (s.leg r) ((s.drive d).found (s.leg r).sector read)))
    ∧ readCondition ((s.drive d).found (s.leg r).sector read) ((atMark s d n).drive d).curCyl ((atMark s d n).drive d).head
      (s.leg r).sector (s.leg r).expect = none := by
  rw [exec_dataSector h hdata, hw, atMark_drive]
  exact ⟨rfl, hread⟩

/-- Recording changes no leg. -/
theorem leg_recordedAt (sec : Nat) (found : Sector) (b : Block) (q : Request) :
    (recordedAt (atMark s d n) d sec found b).leg q = s.leg q := by
  rw [← leg_atMark (s := s) (d := d) (n := n)]
  exact leg_congr fun e => by
    by_cases hed : e = d
    · rw [hed, recordedAt, drive_onDrive_same]
      rfl
    · rw [recordedAt, drive_onDrive_other _ hed]

theorem recordedAt_drive (sec : Nat) (found : Sector) (b : Block) :
    ∃ pack, (recordedAt (atMark s d n) d sec found b).drive d =
      { s.drive d with sector := n.val, elapsed := 0, pack := pack } := by
  rw [recordedAt, drive_onDrive_same, atMark_drive]
  exact ⟨_, rfl⟩

theorem workBlock_blockDone (h : r.kind ≠ .writeAndCheck ∨ r.checking = true) : (blockDone r).workBlock = r.workBlock + 1 :=
  (workBlock_next (r := blockDone r) h).trans (congrArg (· + 1) (workBlock_next h).symm)

theorem workBlock_blockRead (h : r.kind = .readBlocks) (b : Block) : (blockRead r b).workBlock = r.workBlock + 1 :=
  (workBlock_next (r := blockRead r b) (.inl (by simp [blockRead, h]))).trans
    (congrArg (· + 1) (workBlock_next (.inl (by simp [h]))).symm)

/-- A block of a write with another to come on the same track in the same round (R110). -/
theorem leg_write_on (h : s.onSector d r) (hdata : dataLegged r) (ht : r.trial = none) (hf : r.failed = [])
    (hk : r.kind = .writeBlocks) (hc : r.nextBlock + 1 < r.count) (hr : r.nextBlock + 1 ≠ 12 * (r.round + 1))
    (htrack : (s.leg { r with nextBlock := r.nextBlock + 1 }).track = (s.leg r).track)
    (hn : ((s.leg r).sector + 1) % 24 = n.val) (hfull : r.current.state = .full) (hwf : (s.drive d).writeFault = false)
    (hid : idCondition ((s.drive d).found (s.leg r).sector read).id (s.drive d).curCyl (s.drive d).head (s.leg r).sector
      (s.leg r).expect = none) :
    exec (.sectorEvent d n read) s = .next (s.close
      ((recordedAt (atMark s d n) d (s.leg r).sector ((s.drive d).found (s.leg r).sector read) r.blockToWrite).withRequest
        (blockDone r))) := by
  obtain ⟨hentry, -, hphase, -, -, hpend⟩ := onSector_facts h
  rw [exec_writeSector h hdata ht (by simp [Request.writeLeg, hk]) hid]
  dsimp only
  rw [if_neg (by simp [hk])]
  have hleg := fun q => leg_recordedAt (s := s) (d := d) (n := n) (s.leg r).sector
    ((s.drive d).found (s.leg r).sector read) r.blockToWrite q
  obtain ⟨pack, hdrive⟩ := recordedAt_drive (s := s) (d := d) (n := n) (s.leg r).sector
    ((s.drive d).found (s.leg r).sector read) r.blockToWrite
  have hv : (recordedAt (atMark s d n) d (s.leg r).sector ((s.drive d).found (s.leg r).sector read) r.blockToWrite).entry r :=
    hentry
  generalize recordedAt (atMark s d n) d (s.leg r).sector ((s.drive d).found (s.leg r).sector read) r.blockToWrite = v at *
  rw [doneGood_eq hv (by simp [hk]) hf hpend, if_neg (Nat.ne_of_lt hc)]
  have hsteady := goOn_steady (w := v.withRequest (blockDone r)) (q := blockDone r) (d := d) (m := n.val) (old := s.leg r)
    (entry_blockDone hv) hr ((congrArg Leg.track (hleg _)).trans htrack)
    (by simp [Request.ready, Request.takesData, blockDone, hk]; exact hfull) hphase
    (leg_sector_next hdata hdata rfl (workBlock_blockDone (.inl (by simp [hk]))) hn) (fun _ => by
      rw [withRequest_drive, hdrive]
      exact hwf)
  exact congrArg _ (congrArg _ hsteady)

/-- The last block of a write ends it DONE (R110). -/
theorem leg_write_last (h : s.onSector d r) (hdata : dataLegged r) (ht : r.trial = none) (hf : r.failed = [])
    (hk : r.kind = .writeBlocks) (hc : r.nextBlock + 1 = r.count)
    (hid : idCondition ((s.drive d).found (s.leg r).sector read).id (s.drive d).curCyl (s.drive d).head (s.leg r).sector
      (s.leg r).expect = none) :
    exec (.sectorEvent d n read) s = .next (s.close
      (((recordedAt (atMark s d n) d (s.leg r).sector ((s.drive d).found (s.leg r).sector read) r.blockToWrite).withRequest
        (blockDone r)).conclude r.rid (blockDone r).doneEnding)) := by
  obtain ⟨hentry, -, -, -, -, hpend⟩ := onSector_facts h
  have hv : (recordedAt (atMark s d n) d (s.leg r).sector ((s.drive d).found (s.leg r).sector read) r.blockToWrite).entry r :=
    hentry
  rw [exec_writeSector h hdata ht (by simp [Request.writeLeg, hk]) hid]
  dsimp only
  rw [if_neg (by simp [hk]), doneGood_eq hv (by simp [hk]) hf hpend, if_pos hc]

/-- What a good sector of READ BLOCKS comes to (R109). -/
theorem exec_readGood (h : s.onSector d r) (hdata : dataLegged r) (ht : r.trial = none) (hk : r.kind = .readBlocks)
    (hread : readCondition ((s.drive d).found (s.leg r).sector read) (s.drive d).curCyl (s.drive d).head (s.leg r).sector
      (s.leg r).expect = none) :
    exec (.sectorEvent d n read) s = .next (s.close ((atMark s d n).readGood d r n.val (s.leg r)
      ((s.drive d).found (s.leg r).sector read).data.block)) := by
  have hentry : (atMark s d n).entry r := (onSector_facts h).1
  obtain ⟨hexec, hread'⟩ := exec_readSector (n := n) h hdata (by simp [Request.writeLeg, hk]) hread
  rw [hexec, readSectorEnds_good hentry ht (by simp [hk]) hread', if_pos hk]

/-- A block of a read with another to come on the same track in the same round (R109). -/
theorem leg_read_on (h : s.onSector d r) (hdata : dataLegged r) (ht : r.trial = none) (hf : r.failed = [])
    (hk : r.kind = .readBlocks) (hc : r.nextBlock + 1 < r.count) (hr : r.nextBlock + 1 ≠ 12 * (r.round + 1))
    (htrack : (s.leg { r with nextBlock := r.nextBlock + 1 }).track = (s.leg r).track)
    (hn : ((s.leg r).sector + 1) % 24 = n.val) (hfill : r.current.state = .filling)
    (hread : readCondition ((s.drive d).found (s.leg r).sector read) (s.drive d).curCyl (s.drive d).head (s.leg r).sector
      (s.leg r).expect = none) :
    exec (.sectorEvent d n read) s = .next (s.close ((atMark s d n).withRequest
      { blockRead r ((s.drive d).found (s.leg r).sector read).data.block with readTimer := none })) := by
  obtain ⟨hentry, -, hphase, -, -, hpend⟩ := onSector_facts h
  have hv : (atMark s d n).entry r := hentry
  rw [exec_readGood h hdata ht hk hread, readGood_on hv hf hpend hfill hc]
  generalize ((s.drive d).found (s.leg r).sector read).data.block = b
  have hsteady := goOn_steady (w := (atMark s d n).withRequest { blockRead r b with readTimer := none })
    (q := { blockRead r b with readTimer := none }) (d := d) (m := n.val) (old := s.leg r)
    (entry_withRequest hv rfl hv.2.2) (fun hturn => hr (hturn.trans (congrArg (fun i => 12 * (i + 1)) (round_blockRead r b))))
    ((congrArg Leg.track (leg_atMark _)).trans htrack) (ready_blockRead hk hfill b) hphase
    (leg_sector_next hdata hdata rfl (workBlock_blockRead hk b) hn) (fun hw => by
      have hnot : r.writeLeg = true := (leg_writesData (s := (atMark s d n).withRequest { blockRead r b with
        readTimer := none }) (r := { blockRead r b with readTimer := none }) hdata).symm.trans hw
      simp [Request.writeLeg, hk] at hnot)
  exact congrArg _ (congrArg _ hsteady)

/-- The last good block of a read leaves its disk side done (R109). -/
theorem leg_read_last (h : s.onSector d r) (hdata : dataLegged r) (ht : r.trial = none) (hf : r.failed = [])
    (hk : r.kind = .readBlocks) (hc : r.nextBlock + 1 = r.count)
    (hread : readCondition ((s.drive d).found (s.leg r).sector read) (s.drive d).curCyl (s.drive d).head (s.leg r).sector
      (s.leg r).expect = none) :
    exec (.sectorEvent d n read) s = .next (s.close ((atMark s d n).withRequest
      { r.retime (blockRead r ((s.drive d).found (s.leg r).sector read).data.block) (s.port r.port).settings.waitTimer with
        phase := .idle })) := by
  obtain ⟨hentry, -, -, -, -, hpend⟩ := onSector_facts h
  have hv : (atMark s d n).entry r := hentry
  rw [exec_readGood h hdata ht hk hread, readGood_last hv hf hpend hc]
  rfl

/-- What a good sector of CHECK BLOCKS comes to, by the comparison (R112, R113). -/
theorem exec_checkSector (h : s.onSector d r) (hdata : dataLegged r) (ht : r.trial = none) (hk : r.kind = .checkBlocks)
    (hread : readCondition ((s.drive d).found (s.leg r).sector read) (s.drive d).curCyl (s.drive d).head (s.leg r).sector
      (s.leg r).expect = none) :
    exec (.sectorEvent d n read) s = .next (s.close
      (if r.compare = true ∧ ((s.drive d).found (s.leg r).sector read).data.block ≠ r.blockToWrite
        then (atMark s d n).mismatch r else (atMark s d n).doneGood d r n.val (s.leg r))) := by
  have hentry : (atMark s d n).entry r := (onSector_facts h).1
  obtain ⟨hexec, hread'⟩ := exec_readSector (n := n) h hdata (by simp [Request.writeLeg, hk]) hread
  rw [hexec, readSectorEnds_good hentry ht (by simp [hk]) hread', if_neg (by simp [hk])]

/-- A checked block with another to come on the same track in the same round (R112). -/
theorem doneGood_check_on (h : s.onSector d r) (hdata : dataLegged r) (hf : r.failed = []) (hk : r.kind = .checkBlocks)
    (hc : r.nextBlock + 1 < r.count) (hr : r.nextBlock + 1 ≠ 12 * (r.round + 1)) (hready : r.ready = true)
    (htrack : (s.leg { r with nextBlock := r.nextBlock + 1 }).track = (s.leg r).track)
    (hn : ((s.leg r).sector + 1) % 24 = n.val) :
    (atMark s d n).doneGood d r n.val (s.leg r) = (atMark s d n).withRequest (blockDone r) := by
  obtain ⟨hentry, -, hphase, -, -, hpend⟩ := onSector_facts h
  have hv : (atMark s d n).entry r := hentry
  rw [doneGood_eq hv (by simp [hk]) hf hpend, if_neg (Nat.ne_of_lt hc)]
  exact goOn_steady (w := (atMark s d n).withRequest (blockDone r)) (q := blockDone r) (d := d) (m := n.val)
    (old := s.leg r) (entry_blockDone hv) hr ((congrArg Leg.track (leg_atMark _)).trans htrack) hready hphase
    (leg_sector_next hdata hdata rfl (workBlock_blockDone (.inl (by simp [hk]))) hn) (fun hw => by
      have hnot : r.writeLeg = true := (leg_writesData (s := (atMark s d n).withRequest (blockDone r)) (r := blockDone r)
        hdata).symm.trans hw
      simp [Request.writeLeg, hk] at hnot)

/-- A comparison that finds a differing octet ends the request there (R113). -/
theorem mismatch_onPath0 (hpath : w.onPath0 r) (he : w.entry r) (hdata : dataLegged r) (hp : r.pendingEnding = none)
    (hk : r.kind = .checkBlocks) : w.mismatch r =
      (w.path0Handed.withRequest { r with state := .positioned, phase := .idle }).conclude r.rid
        (Ending.at .ended .compareMismatch (addrOf (blockOf r.addr + r.nextBlock))) := by
  obtain ⟨hop, hlabel, hformat⟩ := hdata
  have haddr : r.presentAddr = addrOf (blockOf r.addr + r.nextBlock) := by
    simp only [Request.presentAddr, hop, hlabel, hformat, workBlock_next (.inl (show r.kind ≠ .writeAndCheck by simp [hk]))]
    rfl
  rw [State.mismatch, releaseLeg_onPath0 hpath he hop, hp, haddr]
  rfl

/-! #### WRITE AND CHECK (R111) -/

/-- A leg released for a record that replaces the one the table holds. -/
theorem releaseLeg_withRequest (hpath : w.onPath0 r) (he : w.entry r) (hid : q.rid = r.rid) (hk : q.kind = r.kind)
    (hop : q.op = none) : (w.withRequest q).releaseLeg r.rid =
      w.path0Handed.withRequest (restated q .positioned .idle) := by
  have hentry : (w.withRequest q).entry q := entry_withRequest he hid (hk ▸ he.2.2)
  have hpath' : (w.withRequest q).onPath0 q := by
    rw [State.onPath0, hid]
    exact hpath
  rw [← hid, releaseLeg_onPath0 hpath' hentry hop]
  exact withRequest_withRequest (s := w.path0Handed) rfl

theorem pairWritten_eq (he : w.entry r) (hp : r.pendingEnding = none) : w.pairWritten d r m l =
    if l.sector = 23 ∨ roundLast r.count r.round < r.writePos + 1
      then (w.withRequest { r with writePos := r.writePos + 1, checking := true }).releaseLeg r.rid
      else (w.withRequest { r with writePos := r.writePos + 1 }).beginBlock d r.rid m := by
  have hput : w.putRequest { r with writePos := r.writePos + 1 } = w.withRequest { r with writePos := r.writePos + 1 } :=
    putRequest_table (r := { r with writePos := r.writePos + 1 }) he.2.2
  have hentry : (w.withRequest { r with writePos := r.writePos + 1 }).entry { r with writePos := r.writePos + 1 } :=
    entry_withRequest he rfl he.2.2
  have hreq : (w.withRequest { r with writePos := r.writePos + 1 }).request? r.rid = some { r with writePos := r.writePos + 1 } :=
    request?_entry hentry
  have hcheck : (w.withRequest { r with writePos := r.writePos + 1 }).onRequest r.rid (fun q => { q with checking := true }) =
      w.withRequest { r with writePos := r.writePos + 1, checking := true } := by
    rw [onRequest_some hreq, putRequest_table (r := { r with writePos := r.writePos + 1, checking := true }) he.2.2]
    exact withRequest_withRequest rfl
  unfold State.pairWritten
  simp only [hp, hput, hcheck]

/-- A block recorded with another to come in the write leg. -/
theorem leg_pair_on (h : s.onSector d r) (hdata : dataLegged r) (ht : r.trial = none) (hk : r.kind = .writeAndCheck)
    (hchk : r.checking = false) (hsec : (s.leg r).sector ≠ 23) (hlast : r.writePos + 1 ≤ roundLast r.count r.round)
    (hwf : (s.drive d).writeFault = false) (hn : ((s.leg r).sector + 1) % 24 = n.val)
    (hid : idCondition ((s.drive d).found (s.leg r).sector read).id (s.drive d).curCyl (s.drive d).head (s.leg r).sector
      (s.leg r).expect = none) :
    exec (.sectorEvent d n read) s = .next (s.close
      ((recordedAt (atMark s d n) d (s.leg r).sector ((s.drive d).found (s.leg r).sector read) r.blockToWrite).withRequest
        { r with writePos := r.writePos + 1 })) := by
  obtain ⟨hentry, -, hphase, -, -, hpend⟩ := onSector_facts h
  have hwork : ({ r with writePos := r.writePos + 1 } : Request).workBlock = r.workBlock + 1 := by
    simp [Request.workBlock, hk, hchk]
  obtain ⟨pack, hdrive⟩ := recordedAt_drive (s := s) (d := d) (n := n) (s.leg r).sector
    ((s.drive d).found (s.leg r).sector read) r.blockToWrite
  have hv : (recordedAt (atMark s d n) d (s.leg r).sector ((s.drive d).found (s.leg r).sector read) r.blockToWrite).entry r :=
    hentry
  rw [exec_writeSector h hdata ht (by simp [Request.writeLeg, hk, hchk]) hid]
  dsimp only
  rw [if_pos hk]
  generalize recordedAt (atMark s d n) d (s.leg r).sector ((s.drive d).found (s.leg r).sector read) r.blockToWrite = v at *
  have hbegin := beginBlock_again (q := { r with writePos := r.writePos + 1 }) (d := d) (m := n.val) hv rfl hv.2.2 hphase
    (leg_sector_next hdata hdata rfl hwork hn) (fun _ => by rw [hdrive]; exact hwf)
  rw [pairWritten_eq hv hpend, if_neg (by omega), hbegin]

/-- The last block of a write leg: the check leg is to come. -/
theorem leg_pair_turns (h : s.onSector d r) (hdata : dataLegged r) (ht : r.trial = none) (hk : r.kind = .writeAndCheck)
    (hchk : r.checking = false) (hend : (s.leg r).sector = 23 ∨ roundLast r.count r.round < r.writePos + 1) (hpath : s.onPath0 r)
    (hid : idCondition ((s.drive d).found (s.leg r).sector read).id (s.drive d).curCyl (s.drive d).head (s.leg r).sector
      (s.leg r).expect = none) :
    exec (.sectorEvent d n read) s = .next (s.close
      ((recordedAt (atMark s d n) d (s.leg r).sector ((s.drive d).found (s.leg r).sector read)
        r.blockToWrite).path0Handed.withRequest
          { r with writePos := r.writePos + 1, checking := true, state := .positioned, phase := .idle })) := by
  obtain ⟨hentry, -, -, -, -, hpend⟩ := onSector_facts h
  have hv : (recordedAt (atMark s d n) d (s.leg r).sector ((s.drive d).found (s.leg r).sector read) r.blockToWrite).entry r :=
    hentry
  have hvpath : (recordedAt (atMark s d n) d (s.leg r).sector ((s.drive d).found (s.leg r).sector read)
    r.blockToWrite).onPath0 r := hpath
  rw [exec_writeSector h hdata ht (by simp [Request.writeLeg, hk, hchk]) hid]
  dsimp only
  rw [if_pos hk, pairWritten_eq hv hpend, if_pos hend]
  have hrelease := releaseLeg_withRequest (q := { r with writePos := r.writePos + 1, checking := true }) hvpath hv rfl rfl hdata.1
  rw [hrelease]
  rfl

/-- What a good sector of a check leg comes to. -/
theorem exec_pairSector (h : s.onSector d r) (hdata : dataLegged r) (ht : r.trial = none) (hk : r.kind = .writeAndCheck)
    (hchk : r.checking = true)
    (hread : readCondition ((s.drive d).found (s.leg r).sector read) (s.drive d).curCyl (s.drive d).head (s.leg r).sector
      (s.leg r).expect = none) (hb : ((s.drive d).found (s.leg r).sector read).data.block = r.blockToWrite) :
    exec (.sectorEvent d n read) s = .next (s.close ((atMark s d n).pairChecked d r n.val (s.leg r))) := by
  have hentry : (atMark s d n).entry r := (onSector_facts h).1
  obtain ⟨hexec, hread'⟩ := exec_readSector (n := n) h hdata (by simp [Request.writeLeg, hk, hchk]) hread
  rw [hexec, readSectorEnds_pair hentry ht hk hread' hb]

/-- A block checked good, by what is left of the pair of legs and of the request. -/
theorem pairChecked_eq (he : w.entry r) (hk : r.kind = .writeAndCheck) (hf : r.failed = []) (hp : r.pendingEnding = none) :
    w.pairChecked d r m l =
      if r.nextBlock + 1 < r.writePos then (w.withRequest (blockDone r)).beginBlock d r.rid m
      else if r.nextBlock + 1 = r.count then (w.withRequest (blockDone r)).conclude r.rid (blockDone r).doneEnding
      else
        let x := { blockDone r with checking := false }
        ((if x.roundComplete then (w.withRequest x).toggle x else w.withRequest x).releaseLeg r.rid).aim r.rid := by
  have hreq : (w.withRequest (blockDone r)).request? r.rid = some (blockDone r) := request?_entry (entry_blockDone he)
  have hput : (w.withRequest (blockDone r)).putRequest { blockDone r with checking := false } =
      w.withRequest { blockDone r with checking := false } := by
    rw [putRequest_table (r := { blockDone r with checking := false }) he.2.2]
    exact withRequest_withRequest rfl
  unfold State.pairChecked
  simp only [putData_done he (by simp [hk] : r.kind ≠ .readBlocks), recovered_unfailed hf, hp, hreq, hput]
  rfl

/-- A block checked with another to come in the check leg. -/
theorem pairChecked_on (h : s.onSector d r) (hdata : dataLegged r) (hf : r.failed = []) (hk : r.kind = .writeAndCheck)
    (hchk : r.checking = true) (hw : r.nextBlock + 1 < r.writePos) (hn : ((s.leg r).sector + 1) % 24 = n.val) :
    (atMark s d n).pairChecked d r n.val (s.leg r) = (atMark s d n).withRequest (blockDone r) := by
  obtain ⟨hentry, -, hphase, -, -, hpend⟩ := onSector_facts h
  have hv : (atMark s d n).entry r := hentry
  rw [pairChecked_eq hv hk hf hpend, if_pos hw]
  exact beginBlock_again (q := blockDone r) hv rfl hv.2.2 hphase
    (leg_sector_next hdata hdata rfl (workBlock_blockDone (.inr hchk)) hn) (fun hw => by
      have hnot : r.writeLeg = true := (leg_writesData (s := atMark s d n) (r := blockDone r) hdata).symm.trans hw
      simp [Request.writeLeg, hk, hchk] at hnot)

end

end Sys2Proof.Proofs

/-! ### Rounds that end, and legs that go on elsewhere (R99, R101 to R103) -/

namespace Sys2Proof.Proofs
open Sys2Proof Sys2Proof.Machine Sys2Proof.Laws

section
variable {s w w' : State} {d : Drive} {n : Fin 24} {m : Nat} {read : SurfaceRead} {r q x z : Request} {l old : Leg}
  {found : Sector} {b : Block} {wait : Option Nat}

/-! #### A released leg, the arm sent for the next block (R99) -/

/-- A path handed on is no longer the request's (R96). -/
theorem pathless_path0Handed (h : w.onPath0 r) : w.path0Handed.pathless r.rid := by
  obtain ⟨-, h1, hpref⟩ := h
  refine ⟨?_, h1, fun hmem => hpref (List.mem_of_mem_tail hmem)⟩
  show (PathState.handed w.preference).holds r.rid = false
  cases hl : w.preference with
  | nil => rfl
  | cons a l =>
    have hne : a ≠ r.rid := fun ha => hpref (by simp [hl, ha])
    simp [PathState.handed, PathState.holds, hne]

/-- The arm sent to the cylinder of the next block of a request whose leg is released. -/
theorem aim_released (hpath : w.onPath0 r) (he : w.entry r) (hid : z.rid = r.rid) (hd : z.drive = d)
    (hk : z.kind ≠ .labelUpdate) (hk' : z.kind ≠ .position) (hop : z.op = none) :
    (w.path0Handed.withRequest z).aim r.rid =
      (w.path0Handed.withRequest (z.sentBy (w.drive d) (cylOf (w.leg z).track))).onDrive d fun dr =>
        dr.sentTo (cylOf (w.leg z).track) := by
  have hentry : (w.path0Handed.withRequest z).entry z := entry_withRequest (s := w.path0Handed) he hid hk
  have hreq : (w.path0Handed.withRequest z).request? r.rid = some z := hid ▸ request?_entry hentry
  have hpathless : (w.path0Handed.withRequest z).pathless z.rid := by
    rw [hid]
    exact pathless_path0Handed hpath
  have hleg : (w.path0Handed.withRequest z).leg z = w.leg z := rfl
  unfold State.aim
  rw [hreq]
  dsimp only
  have hone := withRequest_withRequest (s := w.path0Handed) (r := z)
    (q := z.sentBy (w.drive d) (cylOf (w.leg z).track)) rfl
  rw [hd, hleg, ← hid, seekTo_pathless hentry hpathless (.inr hk'), if_neg (by simp [hop])]
  exact congrArg (fun v : State => v.onDrive d fun dr => dr.sentTo (cylOf (w.leg z).track)) hone

/-- A leg released and the arm sent for the next block, for a record that replaces the one the table holds. -/
theorem aim_releaseLeg (hpath : w.onPath0 r) (he : w.entry r) (hid : q.rid = r.rid) (hk : q.kind = r.kind)
    (hdata : r.kind.isData = true) (hop : q.op = none) (hd : q.drive = d) (hcyl : (w.drive d).curCyl = (s.drive d).curCyl) :
    ((w.withRequest q).releaseLeg r.rid).aim r.rid =
      (w.path0Handed.withRequest ({ q with phase := .idle }.sentBy (s.drive d) (cylOf (w.leg q).track))).onDrive d fun dr =>
        dr.sentTo (cylOf (w.leg q).track) := by
  have hsent : ∀ c, (restated q .positioned .idle).sentBy (w.drive d) c = { q with phase := .idle }.sentBy (s.drive d) c :=
    fun c => by
      unfold Request.sentBy
      rw [hcyl]
      rfl
  have hleg : w.leg (restated q .positioned .idle) = w.leg q := rfl
  rw [releaseLeg_withRequest hpath he hid hk hop, aim_released (z := restated q .positioned .idle) hpath he hid hd
    (fun hlabel => he.2.2 (hk.symm.trans hlabel)) (fun hpos => by
      have hpos' : r.kind = .position := hk.symm.trans hpos
      simp [hpos', Kind.isData] at hdata) hop, hsent, hleg]

/-! #### A round that ends (R101, R103) -/

/-- The half a taker of data has used up, as the end of its round leaves it (R103). -/
def usedUp (r : Request) : Half :=
  { state := if 12 * (r.round + 2) < r.count then .wanted else .empty
    round := if 12 * (r.round + 2) < r.count then r.round + 2 else r.round, blocks := [], asked := false, timer := none }

theorem turned_eq (r : Request) : r.turned = { r with
    curHalf := !r.curHalf, half0 := if r.curHalf then r.half0 else usedUp r, half1 := if r.curHalf then usedUp r else r.half1 } := by
  unfold Request.turned
  dsimp only
  rw [setHalf_eq]
  rfl

theorem toggle_taker (h : r.takesData = true) : r.toggle = r.turned := by
  have hspent : r.spent = usedUp r := by
    unfold Request.spent usedUp
    rw [if_pos h]
    split <;> rfl
  have htakes : ∀ c h0 h1, ({ r with curHalf := c, half0 := h0, half1 := h1 } : Request).takesData = true := fun _ _ _ => h
  unfold Request.toggle
  dsimp only
  rw [hspent, setHalf_eq, turned_eq]
  simp only [Request.filling, htakes, if_true]

/-- The current half of a request whose halves have turned is the other one. -/
theorem current_turned (r : Request) : r.turned.current = r.half (!r.curHalf) := by
  rw [turned_eq]
  cases hc : r.curHalf <;> simp [Request.current, Request.half]

/-- The halves of a taker of data turned, its data-wanted frame given (R101, R103). -/
theorem toggle_eq_turned (he : w.entry r) (hk : r.kind ≠ .readBlocks) (h : r.takesData = true) (ht : r.readTimer = none) :
    w.toggle r = (w.askedOn r).withRequest r.turned := by
  have hheld : r.turned.heldUp = false := heldUp_of_kind (by rw [turned_eq]; exact hk)
  have hsame : ({ r.turned with readTimer := none } : Request) = r.turned := by
    rw [turned_eq, ← ht]
  have hput : w.putData r r.turned = w.withRequest r.turned := by
    unfold State.putData
    rw [retime_unheld hheld, hsame]
    exact putRequest_table (r := r.turned) (by rw [turned_eq]; exact he.2.2)
  unfold State.toggle State.askedOn
  rw [toggle_taker h, hput]
  by_cases hmore : 12 * (r.round + 2) < r.count
  · rw [if_pos ⟨h, hmore⟩, if_pos hmore]
    rfl
  · rw [if_neg fun hm => hmore hm.2, if_neg hmore]

/-- A data-wanted frame given changes the ports alone. -/
theorem askedOn_eq (w : State) (r : Request) : ∃ P, w.askedOn r = { w with ports := P } := by
  unfold State.askedOn
  split
  · exact ⟨_, rfl⟩
  · exact ⟨w.ports, rfl⟩

theorem askedOn_withRequest : (w.withRequest q).askedOn r = (w.askedOn r).withRequest q := by
  unfold State.askedOn
  split <;> rfl

/-- A request's record after the last block checked of a pair of legs (R111). -/
def pairDone (r : Request) : Request := { blockDone r with checking := false }

/-- The halves turned where a pair of legs ends a round (R101). -/
theorem toggle_pairDone (he : w.entry r) (hk : r.kind = .writeAndCheck) (hc : r.nextBlock + 1 < r.count) :
    (if (pairDone r).roundComplete then (w.withRequest (pairDone r)).toggle (pairDone r) else w.withRequest (pairDone r)) =
      if r.nextBlock + 1 = 12 * (r.round + 1) then (w.askedOn r).withRequest (pairDone r).turned
      else w.withRequest (pairDone r) := by
  have hentry : (w.withRequest (pairDone r)).entry (pairDone r) := entry_withRequest he rfl he.2.2
  have hasked : (w.withRequest (pairDone r)).askedOn (pairDone r) = (w.askedOn r).withRequest (pairDone r) :=
    askedOn_withRequest
  by_cases hturn : r.nextBlock + 1 = 12 * (r.round + 1)
  · have hcomplete : (pairDone r).roundComplete = true := roundComplete_eq_true (q := pairDone r) hturn hc
    rw [if_pos hturn, if_pos hcomplete, toggle_eq_turned hentry (by simp [pairDone, blockDone, hk])
      (by simp [Request.takesData, pairDone, blockDone, hk]) rfl, hasked]
    exact withRequest_withRequest (by rw [turned_eq])
  · have hcomplete : (pairDone r).roundComplete = false := roundComplete_eq_false (q := pairDone r) hturn
    rw [if_neg hturn, hcomplete]
    rfl

/-- The last block checked of a pair of legs, with more of the request to come (R111): the arm is sent for the next. -/
theorem pairChecked_turns {v : State} {y : Request} (h : s.onSector d r) (hdata : dataLegged r) (hf : r.failed = [])
    (hk : r.kind = .writeAndCheck) (hw : r.writePos ≤ r.nextBlock + 1) (hc : r.nextBlock + 1 < r.count) (hpath : s.onPath0 r)
    (hv : v = if r.nextBlock + 1 = 12 * (r.round + 1) then (atMark s d n).askedOn r else atMark s d n)
    (hy : y = if r.nextBlock + 1 = 12 * (r.round + 1) then (pairDone r).turned else pairDone r) :
    (atMark s d n).pairChecked d r n.val (s.leg r) =
      (v.path0Handed.withRequest ({ y with phase := .idle }.sentBy (s.drive d) (cylOf (s.leg (pairDone r)).track))).onDrive d
        fun dr => dr.sentTo (cylOf (s.leg (pairDone r)).track) := by
  obtain ⟨hentry, hd, -, -, -, hpend⟩ := onSector_facts h
  have hu : (atMark s d n).entry r := hentry
  have hstate : ∃ P, v = { atMark s d n with ports := P } := by
    rw [hv]
    split
    · exact askedOn_eq _ _
    · exact ⟨(atMark s d n).ports, rfl⟩
  have hrecord : y.rid = r.rid ∧ y.kind = r.kind ∧ y.op = r.op ∧ y.drive = r.drive ∧ v.leg y = v.leg (pairDone r) := by
    rw [hy]
    split
    · rw [turned_eq]
      exact ⟨rfl, rfl, rfl, rfl, rfl⟩
    · exact ⟨rfl, rfl, rfl, rfl, rfl⟩
  have hbefore : (if (pairDone r).roundComplete then ((atMark s d n).withRequest (pairDone r)).toggle (pairDone r)
      else (atMark s d n).withRequest (pairDone r)) = v.withRequest y := by
    rw [toggle_pairDone hu hk hc, hv, hy]
    split <;> rfl
  obtain ⟨hid, hkind, hop, hdrive, hleg⟩ := hrecord
  have hfacts : v.entry r ∧ v.onPath0 r ∧ (v.drive d).curCyl = (s.drive d).curCyl ∧ v.leg (pairDone r) = s.leg (pairDone r) := by
    obtain ⟨P, hP⟩ := hstate
    rw [hP]
    refine ⟨hu, hpath, ?_, leg_atMark _⟩
    show ((atMark s d n).drive d).curCyl = _
    rw [atMark_drive]
  obtain ⟨hventry, hvpath, hcyl, hvleg⟩ := hfacts
  have haim := aim_releaseLeg (s := s) hvpath hventry hid hkind (by rw [hk]; rfl) (hop.trans hdata.1) (hdrive.trans hd) hcyl
  rw [pairChecked_eq hu hk hf hpend, if_neg (Nat.not_lt.2 hw), if_neg (Nat.ne_of_lt hc), ← hvleg, ← hleg, ← haim, ← hbefore]
  rfl

end

end Sys2Proof.Proofs

/-! ### Rounds and tracks that end in a read or a write (R99, R101 to R103, R106) -/

namespace Sys2Proof.Proofs
open Sys2Proof Sys2Proof.Machine Sys2Proof.Laws

section
variable {s w v : State} {d : Drive} {n : Fin 24} {m : Nat} {read : SurfaceRead} {r q x z : Request} {l old : Leg}
  {found : Sector} {b : Block} {wait : Option Nat} {h : Half}

/-! #### The halves of a read turned (R101, R102) -/

/-- A read's record with the half it has filled DRAINING and the other, as given, current (R101, R102). -/
def readTurned (q : Request) (h : Half) : Request :=
  ({ q with curHalf := !q.curHalf }.setHalf q.curHalf { q.current with state := .draining }).setHalf (!q.curHalf) h

theorem readTurned_eq (q : Request) (h : Half) : readTurned q h = { q with
    curHalf := !q.curHalf
    half0 := if q.curHalf then h else { q.current with state := .draining }
    half1 := if q.curHalf then { q.current with state := .draining } else h } := by
  cases hc : q.curHalf <;> simp [readTurned, Request.setHalf, hc]

theorem current_readTurned (q : Request) (h : Half) : (readTurned q h).current = h := by
  rw [readTurned_eq]
  cases hc : q.curHalf <;> simp [Request.current, Request.half]

theorem readTurned_of {c : Bool} (hc : q.curHalf = c) (h : Half) : readTurned q h =
    ({ q with curHalf := !c }.setHalf c { q.current with state := .draining }).setHalf (!c) h := by
  rw [readTurned, hc]

/-- The other half of a read begun for a round replaces what stood there. -/
theorem setHalf_readTurned (q : Request) (h h' : Half) :
    (readTurned q h).setHalf (readTurned q h).curHalf h' = readTurned q h' := by
  rw [readTurned_eq, readTurned_eq, setHalf_eq]
  cases q.curHalf <;> rfl

theorem filling_read (hk : q.kind = .readBlocks) : q.filling =
    if q.current.state = .empty then q.setHalf q.curHalf { q.current with state := .filling, blocks := [] } else q := by
  simp [Request.filling, Request.takesData, hk]

/-- What a read's other half becomes as its round begins: FILLING from EMPTY, and else as it stands (R102). -/
def nextHalf (q : Request) : Half :=
  if (q.half (!q.curHalf)).state = .empty
    then { q.half (!q.curHalf) with state := .filling, blocks := [], round := q.round + 1 }
    else { q.half (!q.curHalf) with round := q.round + 1 }

theorem toggle_read (hk : q.kind = .readBlocks) (hb : q.blocksDone < q.nextBlock) : q.toggle = readTurned q (nextHalf q) := by
  have hspent : q.spent = { q.current with state := .draining } := by
    simp [Request.spent, Request.takesData, hk, hb]
  have htakes : ∀ c h0 h1, ({ q with curHalf := c, half0 := h0, half1 := h1 } : Request).takesData = false := fun _ _ _ => by
    simp [Request.takesData, hk]
  have hturned : q.toggle = (readTurned q { q.half (!q.curHalf) with round := q.round + 1 }).filling := by
    unfold Request.toggle
    dsimp only
    rw [hspent, setHalf_eq, readTurned_eq]
    simp only [htakes, Bool.false_eq_true, if_false]
    rw [setHalf_eq]
    cases hc : q.curHalf <;> simp [Request.current, Request.half]
  have hkind : (readTurned q { q.half (!q.curHalf) with round := q.round + 1 }).kind = .readBlocks := by
    rw [readTurned_eq]
    exact hk
  rw [hturned, filling_read hkind, current_readTurned, setHalf_readTurned]
  unfold nextHalf
  split <;> rfl

/-- The halves of a read turned (R101), its timer as R106 has it. -/
theorem toggle_read_eq (he : w.entry q) (hk : q.kind = .readBlocks) (hb : q.blocksDone < q.nextBlock) : w.toggle q =
    w.withRequest (q.retime (readTurned q (nextHalf q)) (w.port q.port).settings.waitTimer) := by
  have htakes : q.takesData = false := by simp [Request.takesData, hk]
  obtain ⟨t, ht⟩ := retime_eq q (readTurned q (nextHalf q)) (w.port q.port).settings.waitTimer
  have hlabel : ({ readTurned q (nextHalf q) with readTimer := t } : Request).kind ≠ .labelUpdate := by
    rw [readTurned_eq]
    exact he.2.2
  unfold State.toggle State.putData
  rw [toggle_read hk hb, ht, putRequest_table hlabel, htakes]
  simp only [Bool.false_eq_true, false_and, if_false]

/-- A read with a half to go on filling runs no timer. -/
theorem retime_turned_on (ho : (q.half (!q.curHalf)).state = .empty) (hc : q.nextBlock < q.count) (ht : q.readTimer = none) :
    q.retime (readTurned q (nextHalf q)) wait =
      readTurned q { q.half (!q.curHalf) with state := .filling, blocks := [], round := q.round + 1 } := by
  have hnext : nextHalf q = { q.half (!q.curHalf) with state := .filling, blocks := [], round := q.round + 1 } := if_pos ho
  have hheld : (readTurned q (nextHalf q)).heldUp = false := by
    refine heldUp_of_filling ?_ ?_
    · rw [current_readTurned, hnext]
    · rw [readTurned_eq]
      exact Nat.ne_of_lt hc
  rw [retime_unheld hheld, hnext, readTurned_eq, ← ht]

/-- A read with both halves DRAINING has its timer started (R106). -/
theorem retime_turned_slips (hk : q.kind = .readBlocks) (ho : (q.half (!q.curHalf)).state = .draining)
    (hs : q.current.state = .filling) (hc : q.nextBlock < q.count) (hd : q.detached = false) :
    q.retime (readTurned q (nextHalf q)) wait =
      { readTurned q { q.half (!q.curHalf) with round := q.round + 1 } with readTimer := wait } := by
  have hnext : nextHalf q = { q.half (!q.curHalf) with round := q.round + 1 } := if_neg (by simp [ho])
  have hbefore : q.heldUp = false := heldUp_of_filling hs (Nat.ne_of_lt hc)
  have hafter : (readTurned q (nextHalf q)).heldUp = true := by
    rw [hnext, readTurned_eq]
    cases hcur : q.curHalf <;> simp_all [Request.heldUp]
  have hdetached : (readTurned q (nextHalf q)).detached = false := by
    rw [readTurned_eq]
    exact hd
  unfold Request.retime
  rw [if_neg (by simp [hafter, hdetached]), if_neg (by simp [hbefore]), hnext]

/-! #### The end of a round on one track (R101 to R103, R106) -/

/-- A round ended on the same track: the leg runs on where the other half is ready. -/
theorem goOn_turned_on (he : v.entry r) (hid : q.rid = r.rid) (hk : q.kind ≠ .labelUpdate)
    (hr : q.nextBlock = 12 * (q.round + 1)) (hc : q.nextBlock < q.count)
    (htoggle : (v.withRequest q).toggle q = w.withRequest z) (hwe : w.entry r) (hz : z.rid = r.rid) (hzk : z.kind ≠ .labelUpdate)
    (htrack : (w.leg z).track = old.track) (hready : z.ready = true) (hph : z.phase = .passing) (hm : (w.leg z).sector = m)
    (hfault : (w.leg z).writesData = true → (w.drive d).writeFault = false) :
    (v.withRequest q).goOn d r.rid m old = w.withRequest z := by
  have hze : (w.withRequest z).entry z := entry_withRequest hwe hz hzk
  have hleg : (w.withRequest z).leg z = w.leg z := rfl
  rw [← hid, goOn_turning (entry_withRequest he hid hk) (roundComplete_eq_true hr hc) htoggle hze (hz.trans hid.symm), hleg,
    if_pos htrack, if_pos hready, hid, ← hz]
  exact beginBlock_passing hze hph hm hfault

/-- And slips where it is not: the path released, the request POSITIONED. -/
theorem goOn_turned_slips (he : v.entry r) (hid : q.rid = r.rid) (hk : q.kind ≠ .labelUpdate)
    (hr : q.nextBlock = 12 * (q.round + 1)) (hc : q.nextBlock < q.count)
    (htoggle : (v.withRequest q).toggle q = w.withRequest z) (hwe : w.entry r) (hwp : w.onPath0 r) (hz : z.rid = r.rid)
    (hzk : z.kind = r.kind) (hop : z.op = none)
    (htrack : (w.leg z).track = old.track) (hready : z.ready = false) :
    (v.withRequest q).goOn d r.rid m old = w.path0Handed.withRequest (restated z .positioned .idle) := by
  have hze : (w.withRequest z).entry z := entry_withRequest hwe hz (hzk ▸ hwe.2.2)
  have hleg : (w.withRequest z).leg z = w.leg z := rfl
  rw [← hid, goOn_turning (entry_withRequest he hid hk) (roundComplete_eq_true hr hc) htoggle hze (hz.trans hid.symm), hleg,
    if_pos htrack, if_neg (by simp [hready]), hid]
  exact releaseLeg_withRequest hwp hwe hz hzk hop

/-! #### The end of a track (R99) -/

/-- A head switch stands open to the next block: its home track on the cylinder the arm stands on (R99). -/
theorem nextLeg_switches (he : w.entry q) (hr : q.ready = true)
    (hs : old.sector = 23 ∧ (w.leg q).track = q.blockTrack q.workBlock ∧ cylOf (w.leg q).track = (w.drive d).curCyl) :
    w.nextLeg d q.rid m old =
      if (w.leg q).writesData = true ∧ (w.drive d).writeProtect = true then (w.releaseLeg q.rid).foundProtected q.rid
      else if w.suspectTest q (w.leg q) = true then (w.releaseLeg q.rid).askSparing q.rid
      else (w.onDrive d fun dr => { dr with head := headOf (w.leg q).track }).beginBlock d q.rid m := by
  obtain ⟨hsec, htrack, hcyl⟩ := hs
  unfold State.nextLeg
  rw [request?_entry he]
  dsimp only
  rw [if_pos ⟨hsec, htrack, hcyl, hr⟩]

/-- Any other next block is reached by a new claim (R99). -/
theorem nextLeg_leaves (he : w.entry q)
    (hs : ¬(old.sector = 23 ∧ (w.leg q).track = q.blockTrack q.workBlock ∧ cylOf (w.leg q).track = (w.drive d).curCyl)) :
    w.nextLeg d q.rid m old = (w.releaseLeg q.rid).aim q.rid := by
  unfold State.nextLeg
  rw [request?_entry he]
  dsimp only
  rw [if_neg fun h => hs ⟨h.1, h.2.1, h.2.2.1⟩]

/-! #### A block of a read or write with more to come -/

/-- The state and the request's record as a good block of a read or write leaves them, its leg to go on. -/
structure Advanced (s : State) (d : Drive) (n : Fin 24) (r : Request) (v : State) (q : Request) : Prop where
  entry : v.entry r
  path : v.onPath0 r
  drive : ∃ pack, v.drive d = { s.drive d with sector := n.val, elapsed := 0, pack := pack }
  leg : ∀ y, v.leg y = s.leg y
  settings : v.settings = s.settings
  record : ∃ h0 h1 done, q = { r with
    nextBlock := r.nextBlock + 1, blocksDone := done, retries := 0, half0 := h0, half1 := h1, readTimer := none }
  ready : q.ready = true
  round : q.round = r.round
  other : q.half (!q.curHalf) = r.half (!r.curHalf)

theorem advanced_read (h : s.onSector d r) (hpath : s.onPath0 r) (hk : r.kind = .readBlocks) (hfill : r.current.state = .filling)
    (b : Block) : Advanced s d n r (atMark s d n) { blockRead r b with readTimer := none } where
  entry := (onSector_facts h).1
  path := hpath
  drive := ⟨(s.drive d).pack, atMark_drive⟩
  leg := leg_atMark
  settings := rfl
  record := ⟨_, _, _, rfl⟩
  ready := ready_blockRead hk hfill b
  round := round_blockRead r b
  other := by cases hc : r.curHalf <;> simp [blockRead, Request.half, hc]

theorem advanced_write (h : s.onSector d r) (hpath : s.onPath0 r) (hk : r.kind = .writeBlocks) (hfull : r.current.state = .full)
    (sec : Nat) (found : Sector) (b : Block) : Advanced s d n r (recordedAt (atMark s d n) d sec found b) (blockDone r) where
  entry := (onSector_facts h).1
  path := hpath
  drive := recordedAt_drive sec found b
  leg := leg_recordedAt sec found b
  settings := rfl
  record := ⟨_, _, _, rfl⟩
  ready := by
    have htakes : (blockDone r).takesData = true := by simp [Request.takesData, blockDone, hk]
    have hcur : (blockDone r).current.state = .full := hfull
    simp [Request.ready, htakes, hcur]
  round := rfl
  other := rfl

/-- What the advanced record keeps of the request's. -/
theorem Advanced.keeps (a : Advanced s d n r v q) : q.rid = r.rid ∧ q.kind = r.kind ∧ q.op = r.op ∧ q.drive = r.drive
    ∧ q.phase = r.phase ∧ q.trial = r.trial ∧ q.checking = r.checking ∧ q.addr = r.addr ∧ q.nextBlock = r.nextBlock + 1
    ∧ q.label = r.label ∧ q.format = r.format := by
  obtain ⟨h0, h1, done, hq⟩ := a.record
  rw [hq]
  exact ⟨rfl, rfl, rfl, rfl, rfl, rfl, rfl, rfl, rfl, rfl, rfl⟩

/-- The leg of a request whose next block has advanced. -/
def nextLegOf (s : State) (r : Request) : Leg := s.leg { r with nextBlock := r.nextBlock + 1 }

theorem Advanced.leg_record (a : Advanced s d n r v q) : (v.withRequest q).leg q = nextLegOf s r := by
  obtain ⟨h0, h1, done, hq⟩ := a.record
  rw [hq]
  exact a.leg _

theorem Advanced.entry_record (a : Advanced s d n r v q) : (v.withRequest q).entry q := by
  obtain ⟨hid, hkind, -⟩ := a.keeps
  exact entry_withRequest a.entry hid (hkind ▸ a.entry.2.2)

theorem Advanced.workBlock (a : Advanced s d n r v q) (hk : r.kind ≠ .writeAndCheck) : q.workBlock = r.nextBlock + 1 := by
  obtain ⟨-, hkind, -, -, -, -, -, -, hnext, -⟩ := a.keeps
  rw [workBlock_next (.inl (hkind ▸ hk)), hnext]

/-- The next block on another track within the round: the leg is at its end (R99). -/
theorem Advanced.leaves_track (a : Advanced s d n r v q) (hr : r.nextBlock + 1 ≠ 12 * (r.round + 1))
    (ht : (nextLegOf s r).track ≠ (s.leg r).track) :
    (v.withRequest q).goOn d r.rid m (s.leg r) = (v.withRequest q).nextLeg d r.rid m (s.leg r) := by
  obtain ⟨hid, -, -, -, -, -, -, -, hnext, -⟩ := a.keeps
  rw [← hid, goOn_within a.entry_record (roundComplete_eq_false (by rw [hnext, a.round]; exact hr)), a.leg_record, if_neg ht]

/-- Whether the next block is reached by a head switch (R99). -/
def switchesHead (s : State) (d : Drive) (r : Request) : Prop :=
  (s.leg r).sector = 23 ∧ (nextLegOf s r).track = (blockOf r.addr + r.nextBlock + 1) / 24
    ∧ cylOf (nextLegOf s r).track = (s.drive d).curCyl

theorem Advanced.switchesHead_iff (a : Advanced s d n r v q) (hk : r.kind ≠ .writeAndCheck) : switchesHead s d r ↔
    (s.leg r).sector = 23 ∧ ((v.withRequest q).leg q).track = q.blockTrack q.workBlock
      ∧ cylOf ((v.withRequest q).leg q).track = ((v.withRequest q).drive d).curCyl := by
  obtain ⟨-, -, -, -, -, -, -, haddr, -⟩ := a.keeps
  obtain ⟨pack, hdrive⟩ := a.drive
  rw [a.leg_record, withRequest_drive, hdrive, Request.blockTrack, a.workBlock hk, Request.startBlock, haddr]
  exact Iff.rfl

theorem Advanced.released (a : Advanced s d n r v q) (hdata : dataLegged r) :
    (v.withRequest q).releaseLeg r.rid = v.path0Handed.withRequest (restated q .positioned .idle) := by
  obtain ⟨hid, hkind, hop, -⟩ := a.keeps
  exact releaseLeg_withRequest a.path a.entry hid hkind (hop.trans hdata.1)

theorem Advanced.writesData (a : Advanced s d n r v q) (hk : r.kind = .readBlocks ∨ r.kind = .writeBlocks) (hdata : dataLegged r) :
    (nextLegOf s r).writesData = decide (r.kind = .writeBlocks) := by
  obtain ⟨-, hkind, hop, -, -, -, -, -, -, hlabel, hformat⟩ := a.keeps
  rw [← a.leg_record, leg_writesData ⟨hop.trans hdata.1, hlabel.trans hdata.2.1, hformat.trans hdata.2.2⟩, Request.writeLeg, hkind]
  rcases hk with hk | hk <;> rw [hk] <;> rfl

theorem Advanced.suspectTest (a : Advanced s d n r v q) (hk : r.kind = .readBlocks ∨ r.kind = .writeBlocks)
    (hd : r.drive = d) (htrial : r.trial = none) : (v.withRequest q).suspectTest q (nextLegOf s r) = true ↔
      r.kind = .writeBlocks ∧ s.settings.autoSpare = true
        ∧ s.settings.suspectThreshold ≤ tallyOf (s.drive d).suspects (nextLegOf s r).track := by
  obtain ⟨-, hkind, -, hdrive, -, ht, -⟩ := a.keeps
  obtain ⟨pack, hrec⟩ := a.drive
  have hsuspects : (v.drive q.drive).suspects = (s.drive d).suspects := by rw [hdrive, hd, hrec]
  have hsettings : (v.withRequest q).settings = s.settings := a.settings
  rcases hk with hk | hk <;>
    simp [State.suspectTest, State.mayAutoSpare, Request.writeLeg, hkind, hk, ht, htrial, hsuspects, hsettings, Kind.isData]

theorem Advanced.nextLeg_eq (a : Advanced s d n r v q) (hk : r.kind = .readBlocks ∨ r.kind = .writeBlocks)
    (hs : switchesHead s d r) : (v.withRequest q).nextLeg d r.rid m (s.leg r) =
      if (nextLegOf s r).writesData = true ∧ (s.drive d).writeProtect = true
        then ((v.withRequest q).releaseLeg r.rid).foundProtected r.rid
      else if (v.withRequest q).suspectTest q (nextLegOf s r) = true then ((v.withRequest q).releaseLeg r.rid).askSparing r.rid
      else ((v.withRequest q).onDrive d fun dr => { dr with head := headOf (nextLegOf s r).track }).beginBlock d r.rid m := by
  obtain ⟨hid, -⟩ := a.keeps
  obtain ⟨pack, hrec⟩ := a.drive
  have hpair : r.kind ≠ .writeAndCheck := by rcases hk with hk | hk <;> simp [hk]
  have hswitch := nextLeg_switches (d := d) (m := m) (old := s.leg r) a.entry_record a.ready ((a.switchesHead_iff hpair).1 hs)
  rw [hid, a.leg_record, withRequest_drive, hrec] at hswitch
  exact hswitch

/-- The event goes on with a head switch where the pack and its suspect table let it (R94, R99, R126). -/
theorem Advanced.switch_on (a : Advanced s d n r v q) (hk : r.kind = .readBlocks ∨ r.kind = .writeBlocks) (hdata : dataLegged r)
    (htrial : r.trial = none) (hd : r.drive = d) (hph : r.phase = .passing) (hs : switchesHead s d r)
    (hm : (nextLegOf s r).sector = m)
    (hclear : r.kind = .writeBlocks → (s.drive d).writeProtect = false ∧ (s.drive d).writeFault = false
      ∧ (s.settings.autoSpare = true → tallyOf (s.drive d).suspects (nextLegOf s r).track < s.settings.suspectThreshold)) :
    (v.withRequest q).nextLeg d r.rid m (s.leg r) =
      (v.onDrive d fun dr => { dr with head := headOf (nextLegOf s r).track }).withRequest q := by
  obtain ⟨hid, -, -, -, hphase, -⟩ := a.keeps
  obtain ⟨pack, hrec⟩ := a.drive
  have hwrites := a.writesData hk hdata
  have hprotect : ¬((nextLegOf s r).writesData = true ∧ (s.drive d).writeProtect = true) := fun ⟨hw, hp⟩ => by
    rw [hwrites, decide_eq_true_eq] at hw
    simp [(hclear hw).1] at hp
  have hsuspect : ¬(v.withRequest q).suspectTest q (nextLegOf s r) = true := fun ht => by
    obtain ⟨hw, hauto, htally⟩ := (a.suspectTest hk hd htrial).1 ht
    exact absurd ((hclear hw).2.2 hauto) (Nat.not_lt.2 htally)
  have hhead : ((v.withRequest q).onDrive d fun dr => { dr with head := headOf (nextLegOf s r).track }).leg q = nextLegOf s r := by
    rw [← a.leg_record]
    exact leg_congr fun e => by
      by_cases hed : e = d
      · rw [hed, drive_onDrive_same]
      · rw [drive_onDrive_other _ hed]
  rw [a.nextLeg_eq hk hs, if_neg hprotect, if_neg hsuspect, ← hid]
  exact beginBlock_passing (w := (v.withRequest q).onDrive d _) a.entry_record (hphase.trans hph) ((congrArg Leg.sector hhead).trans hm) fun hw => by
    rw [hhead, hwrites, decide_eq_true_eq] at hw
    rw [drive_onDrive_same, withRequest_drive, hrec]
    exact (hclear hw).2.1

/-- A write that finds the pack protected ends there (R94). -/
theorem Advanced.switch_protected (a : Advanced s d n r v q) (hk : r.kind = .writeBlocks) (hdata : dataLegged r)
    (hs : switchesHead s d r) (hp : (s.drive d).writeProtect = true) :
    (v.withRequest q).nextLeg d r.rid m (s.leg r) =
      (v.path0Handed.withRequest { q with state := .positioned, phase := .idle }).conclude r.rid
        (Ending.at .ended .writeProtected (addrOf (blockOf r.addr + r.nextBlock + 1))) := by
  obtain ⟨hid, hkind, hop, -, -, -, -, haddr, -, hlabel, hformat⟩ := a.keeps
  have hentry : (v.path0Handed.withRequest (restated q .positioned .idle)).entry (restated q .positioned .idle) :=
    entry_withRequest (s := v.path0Handed) a.entry hid (hkind ▸ a.entry.2.2)
  have hreq : (v.path0Handed.withRequest (restated q .positioned .idle)).request? r.rid = some (restated q .positioned .idle) :=
    hid ▸ request?_entry hentry
  have hop' : (restated q .positioned .idle).op = none := hop.trans hdata.1
  have hwork : (restated q .positioned .idle).workBlock = r.nextBlock + 1 := a.workBlock (by simp [hk])
  have haddress : (restated q .positioned .idle).presentAddr = addrOf (blockOf r.addr + r.nextBlock + 1) := by
    have hlabel' : (restated q .positioned .idle).label = none := hlabel.trans hdata.2.1
    have hformat' : (restated q .positioned .idle).format = none := hformat.trans hdata.2.2
    have hstart : (restated q .positioned .idle).startBlock = blockOf r.addr := congrArg blockOf haddr
    simp only [Request.presentAddr, hop', hlabel', hformat', Request.blockAddr, hwork, hstart, Nat.add_assoc]
  have hwrites : (nextLegOf s r).writesData = true := by rw [a.writesData (.inr hk) hdata, hk]; rfl
  rw [a.nextLeg_eq (.inr hk) hs, if_pos ⟨hwrites, hp⟩, a.released hdata, State.foundProtected, hreq]
  simp only [hop', haddress]
  rfl

/-- A write that finds its track suspect asks for a sparing (R126). -/
theorem Advanced.switch_suspect (a : Advanced s d n r v q) (hk : r.kind = .writeBlocks) (hdata : dataLegged r)
    (htrial : r.trial = none) (hd : r.drive = d) (hs : switchesHead s d r) (hp : (s.drive d).writeProtect = false)
    (hauto : s.settings.autoSpare = true)
    (htally : s.settings.suspectThreshold ≤ tallyOf (s.drive d).suspects (nextLegOf s r).track) :
    (v.withRequest q).nextLeg d r.rid m (s.leg r) =
      (v.path0Handed.withRequest { q with state := .positioned, phase := .idle }).askSparing r.rid := by
  rw [a.nextLeg_eq (.inr hk) hs, if_neg (by simp [hp]), if_pos ((a.suspectTest (.inr hk) hd htrial).2 ⟨hk, hauto, htally⟩),
    a.released hdata]
  rfl

/-- Any other next block is reached by a new claim, the arm sent to its cylinder (R99). -/
theorem Advanced.switch_none (a : Advanced s d n r v q) (hk : r.kind = .readBlocks ∨ r.kind = .writeBlocks) (hdata : dataLegged r)
    (hd : r.drive = d) (hs : ¬switchesHead s d r) :
    (v.withRequest q).nextLeg d r.rid m (s.leg r) =
      (v.path0Handed.withRequest ({ q with phase := .idle }.sentBy (s.drive d) (cylOf (nextLegOf s r).track))).onDrive d
        fun dr => dr.sentTo (cylOf (nextLegOf s r).track) := by
  obtain ⟨hid, hkind, hop, hdrive, -⟩ := a.keeps
  obtain ⟨pack, hrec⟩ := a.drive
  have hpair : r.kind ≠ .writeAndCheck := by rcases hk with hk | hk <;> simp [hk]
  have hisData : r.kind.isData = true := by rcases hk with hk | hk <;> rw [hk] <;> rfl
  have hleave := nextLeg_leaves (d := d) (m := m) (old := s.leg r) a.entry_record fun h => hs ((a.switchesHead_iff hpair).2 h)
  have haim := aim_releaseLeg (s := s) a.path a.entry hid hkind hisData (hop.trans hdata.1) (hdrive.trans hd) (by rw [hrec])
  have hleg : v.leg q = nextLegOf s r := a.leg_record
  rw [hid] at hleave
  rw [hleave, haim, hleg]

/-! #### The end of a round (R101 to R103, R106) -/

theorem Advanced.askedOn (a : Advanced s d n r v q) : v.askedOn q = v.askedOn r := by
  obtain ⟨h0, h1, done, hq⟩ := a.record
  have hround := a.round
  rw [hq] at hround ⊢
  unfold State.askedOn
  rw [hround]

/-- The halves of a write turned, and its frame given. -/
theorem Advanced.toggle_write (a : Advanced s d n r v q) (hk : r.kind = .writeBlocks) :
    (v.withRequest q).toggle q = (v.askedOn r).withRequest q.turned := by
  have hkind : q.kind = .writeBlocks := a.keeps.2.1.trans hk
  have htimer : q.readTimer = none := by
    obtain ⟨h0, h1, done, hq⟩ := a.record
    rw [hq]
  rw [toggle_eq_turned a.entry_record (by simp [hkind]) (by simp [Request.takesData, hkind]) htimer, askedOn_withRequest, a.askedOn]
  exact withRequest_withRequest (by rw [turned_eq])

/-- What the turned record of a write keeps, and when it is ready. -/
theorem Advanced.turned_keeps (a : Advanced s d n r v q) (hk : r.kind = .writeBlocks) : q.turned.rid = r.rid
    ∧ q.turned.kind = r.kind ∧ q.turned.op = r.op ∧ q.turned.phase = r.phase ∧ v.leg q.turned = nextLegOf s r
    ∧ q.turned.ready = decide ((r.half (!r.curHalf)).state = .full) := by
  obtain ⟨hid, hkind, hop, -, hphase, -⟩ := a.keeps
  have hready : q.turned.ready = decide ((r.half (!r.curHalf)).state = .full) := by
    have htakes : q.turned.takesData = true := by
      rw [turned_eq]
      simp [Request.takesData, hkind, hk]
    rw [Request.ready, if_pos htakes, current_turned, a.other]
  refine ⟨?_, ?_, ?_, ?_, ?_, hready⟩ <;> rw [turned_eq]
  · exact hid
  · exact hkind
  · exact hop
  · exact hphase
  · exact a.leg_record

theorem Advanced.round_complete (a : Advanced s d n r v q) (hr : r.nextBlock + 1 = 12 * (r.round + 1))
    (hc : r.nextBlock + 1 < r.count) : q.nextBlock = 12 * (q.round + 1) ∧ q.nextBlock < q.count := by
  obtain ⟨h0, h1, done, hq⟩ := a.record
  rw [a.round, hq]
  exact ⟨hr, hc⟩

/-- A write's round ends: it goes on with its other half FULL, and slips else (R101, R103). -/
theorem Advanced.turn_write (a : Advanced s d n r v q) (hk : r.kind = .writeBlocks) (hdata : dataLegged r)
    (hph : r.phase = .passing) (hr : r.nextBlock + 1 = 12 * (r.round + 1)) (hc : r.nextBlock + 1 < r.count)
    (ht : (nextLegOf s r).track = (s.leg r).track) :
    ((r.half (!r.curHalf)).state = .full → (nextLegOf s r).sector = m → (s.drive d).writeFault = false →
      (v.withRequest q).goOn d r.rid m (s.leg r) = (v.askedOn r).withRequest q.turned)
    ∧ ((r.half (!r.curHalf)).state ≠ .full → (v.withRequest q).goOn d r.rid m (s.leg r) =
      (v.askedOn r).path0Handed.withRequest { q.turned with state := .positioned, phase := .idle }) := by
  obtain ⟨hzid, hzkind, hzop, hzphase, hzleg, hzready⟩ := a.turned_keeps hk
  obtain ⟨hqr, hqc⟩ := a.round_complete hr hc
  obtain ⟨hid, hkind, -⟩ := a.keeps
  obtain ⟨P, hP⟩ := askedOn_eq v r
  obtain ⟨pack, hrec⟩ := a.drive
  have hw : (v.askedOn r).entry r ∧ (v.askedOn r).onPath0 r ∧ (v.askedOn r).leg q.turned = nextLegOf s r
      ∧ (v.askedOn r).drive d = v.drive d := by
    rw [hP]
    exact ⟨a.entry, a.path, hzleg, rfl⟩
  obtain ⟨hwentry, hwpath, hwleg, hwdrive⟩ := hw
  have hlabel : q.kind ≠ .labelUpdate := hkind ▸ a.entry.2.2
  refine ⟨fun hfull hm hwf => ?_, fun hnot => ?_⟩
  · exact goOn_turned_on a.entry hid hlabel hqr hqc (a.toggle_write hk) hwentry hzid (hzkind ▸ a.entry.2.2) (hwleg ▸ ht)
      (by simp [hzready, hfull]) (hzphase.trans hph) (hwleg ▸ hm) fun _ => by
        rw [hwdrive, hrec]
        exact hwf
  · exact goOn_turned_slips a.entry hid hlabel hqr hqc (a.toggle_write hk) hwentry hwpath hzid hzkind (hzop.trans hdata.1)
      (hwleg ▸ ht) (by simp [hzready, hnot])

/-- The halves of a read turned, its timer as R106 has it. -/
theorem Advanced.toggle_read (a : Advanced s d n r v q) (hk : r.kind = .readBlocks) (hb : q.blocksDone < q.nextBlock) :
    (v.withRequest q).toggle q =
      v.withRequest (q.retime (readTurned q (nextHalf q)) (v.port r.port).settings.waitTimer) := by
  have hport : q.port = r.port := by
    obtain ⟨h0, h1, done, hq⟩ := a.record
    rw [hq]
  obtain ⟨t, ht⟩ := retime_eq q (readTurned q (nextHalf q)) (v.port r.port).settings.waitTimer
  rw [toggle_read_eq a.entry_record (a.keeps.2.1.trans hk) hb, withRequest_port, hport, ht]
  exact withRequest_withRequest (by rw [readTurned_eq])

/-- What the turned record of a read keeps. -/
theorem Advanced.readTurned_keeps (a : Advanced s d n r v q) (h : Half) (t : Option Nat) :
    let z := { readTurned q h with readTimer := t }
    z.rid = r.rid ∧ z.kind = r.kind ∧ z.op = r.op ∧ z.phase = r.phase ∧ v.leg z = nextLegOf s r := by
  obtain ⟨hid, hkind, hop, -, hphase, -⟩ := a.keeps
  have hleg := a.leg_record
  rw [readTurned_eq]
  exact ⟨hid, hkind, hop, hphase, hleg⟩

/-- A turned read is ready for the disk side by its new current half (R102). -/
theorem ready_readTurned (hk : q.kind = .readBlocks) (h : Half) (t : Option Nat) :
    ({ readTurned q h with readTimer := t } : Request).ready = (decide (h.state = .empty) || decide (h.state = .filling)) := by
  have htakes : ({ readTurned q h with readTimer := t } : Request).takesData = false := by
    rw [readTurned_eq]
    simp [Request.takesData, hk]
  have hcur : ({ readTurned q h with readTimer := t } : Request).current = h := current_readTurned q h
  simp [Request.ready, htakes, hcur]

/-- A read's round ends: it goes on filling an EMPTY half, and slips where both are DRAINING (R101, R102, R106). -/
theorem Advanced.turn_read (a : Advanced s d n r v q) (hk : r.kind = .readBlocks) (hdata : dataLegged r)
    (hph : r.phase = .passing) (hdet : r.detached = false) (hs : q.current.state = .filling) (hb : q.blocksDone < q.nextBlock)
    (hr : r.nextBlock + 1 = 12 * (r.round + 1)) (hc : r.nextBlock + 1 < r.count) (ht : (nextLegOf s r).track = (s.leg r).track) :
    ((r.half (!r.curHalf)).state = .empty → (nextLegOf s r).sector = m →
      (v.withRequest q).goOn d r.rid m (s.leg r) = v.withRequest
        (readTurned q { r.half (!r.curHalf) with state := .filling, blocks := [], round := r.round + 1 }))
    ∧ ((r.half (!r.curHalf)).state = .draining → (v.withRequest q).goOn d r.rid m (s.leg r) = v.path0Handed.withRequest
      { readTurned q { r.half (!r.curHalf) with round := r.round + 1 } with
        readTimer := (v.port r.port).settings.waitTimer, state := .positioned, phase := .idle }) := by
  obtain ⟨hqr, hqc⟩ := a.round_complete hr hc
  obtain ⟨hid, hkind, -⟩ := a.keeps
  have hqk : q.kind = .readBlocks := hkind.trans hk
  have hfacts : q.readTimer = none ∧ q.detached = r.detached := by
    obtain ⟨h0, h1, done, hq⟩ := a.record
    rw [hq]
    exact ⟨rfl, rfl⟩
  obtain ⟨htimer, hqdet⟩ := hfacts
  have hlabel : q.kind ≠ .labelUpdate := hkind ▸ a.entry.2.2
  have htoggle := a.toggle_read hk hb
  rw [← a.other, ← a.round]
  refine ⟨fun hempty hm => ?_, fun hdrain => ?_⟩
  · rw [retime_turned_on hempty hqc htimer] at htoggle
    have hsame : ({ readTurned q { q.half (!q.curHalf) with state := .filling, blocks := [], round := q.round + 1 } with
        readTimer := none } : Request) =
          readTurned q { q.half (!q.curHalf) with state := .filling, blocks := [], round := q.round + 1 } := by
      rw [readTurned_eq, ← htimer]
    obtain ⟨hzid, hzkind, -, hzphase, hzleg⟩ := a.readTurned_keeps
      { q.half (!q.curHalf) with state := .filling, blocks := [], round := q.round + 1 } none
    have hready := ready_readTurned hqk
      { q.half (!q.curHalf) with state := .filling, blocks := [], round := q.round + 1 } none
    rw [hsame] at hzid hzkind hzphase hzleg hready
    exact goOn_turned_on a.entry hid hlabel hqr hqc htoggle a.entry hzid (hzkind ▸ a.entry.2.2) (hzleg ▸ ht)
      (by rw [hready]; simp) (hzphase.trans hph) (hzleg ▸ hm) fun hw => by
        rw [hzleg, a.writesData (.inl hk) hdata, hk] at hw
        simp at hw
  · rw [retime_turned_slips hqk hdrain hs hqc (hqdet.trans hdet)] at htoggle
    obtain ⟨hzid, hzkind, hzop, -, hzleg⟩ := a.readTurned_keeps { q.half (!q.curHalf) with round := q.round + 1 }
      (v.port r.port).settings.waitTimer
    have hready := ready_readTurned hqk { q.half (!q.curHalf) with round := q.round + 1 } (v.port r.port).settings.waitTimer
    exact goOn_turned_slips a.entry hid hlabel hqr hqc htoggle a.entry a.path hzid hzkind (hzop.trans hdata.1)
      (hzleg ▸ ht) (by rw [hready]; simp [hdrain])

end

end Sys2Proof.Proofs

/-! ### Map disagreements and trials (R128 to R130), and write fault at a leg's start (R32) -/

namespace Sys2Proof.Proofs
open Sys2Proof Sys2Proof.Machine Sys2Proof.Laws

section
variable {s w : State} {d : Drive} {n : Fin 24} {m : Nat} {read : SurfaceRead} {r q : Request} {e : Ending} {st : ReqState}
  {ph : BlockPhase} {tr : Option (Nat × Nat)}

/-! #### An ending depends on no state, phase or trial of the request's record -/

/-- A request's record with its state, phase and trial replaced. -/
def retried (r : Request) (st : ReqState) (ph : BlockPhase) (tr : Option (Nat × Nat)) : Request :=
  { r with state := st, phase := ph, trial := tr }

theorem marked_retried (s : State) (r : Request) :
    marked (s.withRequest (retried r st ph tr)) (retried r st ph tr) = retried (marked s r) st ph tr := by
  have hmatch : (s.withRequest (retried r st ph tr)).matching .reportAfter r.port r.drive r.kind r.extent =
      s.matching .reportAfter r.port r.drive r.kind r.extent := rfl
  show windowed (retried r st ph tr) _ = retried (windowed r _) st ph tr
  unfold windowed
  cases hr : r.reachedArm with
  | false => simp only [retried, hr, Bool.false_eq_true, if_false]
  | true => simp only [retried, hr, if_true]; rfl

/-- The report, the notices and the standing of an ending (R63 steps 1 to 3). -/
theorem toldEnding_retried (h : s.entry r) : toldEnding (s.withRequest (retried r st ph tr)) (retried r st ph tr) e =
    (toldEnding s r e).withRequest (retried (marked s r) st ph tr) := by
  have hid : (marked s r).rid = r.rid := (marked_keeps s r).1
  have hentry : ((s.reportEnding r e .none).withRequest (retried r st ph tr)).entry (retried r st ph tr) :=
    entry_withRequest (s := s.reportEnding r e .none) h rfl h.2.2
  have hnew := reportAfter_eq hentry
  have hold := reportAfter_eq (s := s.reportEnding r e .none) h
  have hrid : (retried r st ph tr).rid = (retried (marked (s.reportEnding r e .none) r) st ph tr).rid := hid.symm
  rw [marked_retried, withRequest_withRequest hrid] at hnew
  have hagain : ((s.reportEnding r e .none).withRequest (marked s r)).withRequest (retried (marked s r) st ph tr) =
      (s.reportEnding r e .none).withRequest (retried (marked s r) st ph tr) := withRequest_withRequest rfl
  have hafter : ((s.reportEnding r e .none).withRequest (retried r st ph tr)).reportAfter (retried r st ph tr) =
      ((s.reportEnding r e .none).reportAfter r).withRequest (retried (marked s r) st ph tr) := by
    refine hnew.trans (Eq.trans ?_ (congrArg (State.withRequest · (retried (marked s r) st ph tr)) hold).symm)
    refine Eq.trans ?_ (windowsTold_withRequest _)
    exact congrArg (windowsTold · r _) hagain.symm
  unfold toldEnding
  exact congrArg (State.markStanding · r.port r.rid _) hafter

/-- The entry of an ending request goes alike. -/
theorem leaveTable_retried (h : s.entry r) : (s.withRequest (retried r st ph tr)).leaveTable r.rid = s.leaveTable r.rid := by
  have hentry : (s.withRequest (retried r st ph tr)).entry (retried r st ph tr) := entry_withRequest h rfl h.2.2
  have hnew := leaveTable_entry (request?_entry hentry) h.2.2
  have hsame : gaveUp s (retried r st ph tr) r.rid = gaveUp s r r.rid := rfl
  refine hnew.trans ?_
  rw [gaveUp_withRequest, leaveTable_entry (request?_entry h) h.2.2, withoutEntry_withRequest_same]
  exact congrArg (withoutEntry · r.rid) hsame

theorem endDone_retried (h : s.entry r) (hc : e.cls = .done) :
    (s.withRequest (retried r st ph tr)).endDone (retried r st ph tr) e .none = s.endDone r e .none := by
  have hid : (marked s r).rid = r.rid := (marked_keeps s r).1
  have htold : ∀ (u : State) x, u.reportDone x e .none = toldEnding u x e := fun u x => by
    rw [toldEnding, if_pos hc]
    rfl
  have hleave := leaveTable_retried (st := st) (ph := ph) (tr := tr) (toldEnding_entry h e)
  rw [hid] at hleave
  unfold State.endDone
  rw [htold, htold, toldEnding_retried h]
  exact congrArg (State.releaseBehind · r.rid) hleave

theorem endBroken_retried (h : s.entry r) (hc : e.cls ≠ .done) (hr : r.state ≠ .waitingChain) (hst : st ≠ .waitingChain) :
    (s.withRequest (retried r st ph tr)).endBroken (retried r st ph tr) e .none = s.endBroken r e .none := by
  have hid : (marked s r).rid = r.rid := (marked_keeps s r).1
  have hstate : (marked s r).state ≠ .waitingChain := by
    rw [show (marked s r).state = r.state from (windowed_keeps _).2.2.1]
    exact hr
  have hbroken : ∀ (u : State) x, u.endBroken x e .none =
      ((toldEnding u x e).breakChain (toldEnding u x e).table.length x.rid).leaveTable x.rid :=
    fun u x => by
      rw [toldEnding, if_neg hc]
      rfl
  have hlength : ((toldEnding s r e).withRequest (retried (marked s r) st ph tr)).table.length =
      (toldEnding s r e).table.length := List.length_map _
  have hentry := toldEnding_entry h e
  rw [hbroken, hbroken, toldEnding_retried h, hlength]
  generalize (toldEnding s r e).table.length = k
  obtain ⟨hchain, hentry'⟩ := breakChain_withRequest (q := retried (marked s r) st ph tr) hentry hstate rfl hst k r.rid
  have hleave := leaveTable_retried (st := st) (ph := ph) (tr := tr) hentry'
  rw [hid] at hleave
  exact (congrArg (State.leaveTable · r.rid) hchain).trans hleave

/-- How a request that is not detached ends, by what it is and the class (R55, R56, R64). -/
theorem conclude_entry (h : s.entry r) (hd : r.detached = false) : s.conclude r.rid e =
    if r.earlyEnded = true then
      if e.cls = .done then s.leaveTable r.rid else (s.withRequest (carrying r e)).leaveTable r.rid
    else if e.cls = .done then s.endDone r e .none else s.endBroken r e .none := by
  have hput : s.putRequest { r with failure := some e } = s.withRequest (carrying r e) :=
    putRequest_table (r := carrying r e) h.2.2
  have hreported : ¬(r.kind = .labelUpdate ∨ r.detached = true) := by simp [h.2.2, hd]
  unfold State.conclude
  rw [request?_entry h]
  dsimp only
  rw [hput, if_neg hreported]

theorem conclude_retried (h : s.entry r) (hd : r.detached = false) (hr : r.state ≠ .waitingChain) (hst : st ≠ .waitingChain) :
    (s.withRequest (retried r st ph tr)).conclude r.rid e = s.conclude r.rid e := by
  have hentry : (s.withRequest (retried r st ph tr)).entry (retried r st ph tr) := entry_withRequest h rfl h.2.2
  have hcarried : (s.withRequest (carrying r e)).entry (carrying r e) := entry_withRequest h rfl h.2.2
  have hfolds : ((s.withRequest (retried r st ph tr)).withRequest (carrying (retried r st ph tr) e)).leaveTable r.rid =
      (s.withRequest (carrying r e)).leaveTable r.rid := by
    have hsame : (s.withRequest (retried r st ph tr)).withRequest (carrying (retried r st ph tr) e) =
        (s.withRequest (carrying r e)).withRequest (retried (carrying r e) st ph tr) :=
      (withRequest_withRequest (r := retried r st ph tr) (q := carrying (retried r st ph tr) e) rfl).trans
        (withRequest_withRequest (r := carrying r e) (q := retried (carrying r e) st ph tr) rfl).symm
    rw [hsame]
    exact leaveTable_retried hcarried
  refine (conclude_entry hentry hd).trans ((conclude_entry h hd).trans ?_).symm
  have hleave := leaveTable_retried (st := st) (ph := ph) (tr := tr) h
  show _ = if r.earlyEnded = true then if e.cls = .done then (s.withRequest (retried r st ph tr)).leaveTable r.rid
      else ((s.withRequest (retried r st ph tr)).withRequest (carrying (retried r st ph tr) e)).leaveTable r.rid
    else _
  rw [hfolds, hleave]
  by_cases hc : e.cls = .done
  · rw [if_pos hc, if_pos hc, if_pos hc, endDone_retried h hc]
  · rw [if_neg hc, if_neg hc, if_neg hc, endBroken_retried h hc hr hst]

/-! #### A map disagreement (R128, R129) -/

theorem mem_freeIndices {es : List MapEntry} {k : Nat} : k ∈ freeIndices es ↔ isFreeIndex es k = true := by
  rw [freeIndices, List.mem_filter, List.mem_range]
  refine ⟨fun h => h.2, fun h => ⟨?_, h⟩⟩
  simp only [isFreeIndex, Bool.and_eq_true, decide_eq_true_eq] at h
  exact h.1

/-- A sector of a data leg whose ID field disagrees with the map fails at once (R98, R128). -/
theorem exec_disagreement {link : Option Nat} (h : s.onSector d r) (hpath : s.onPath0 r) (hdata : dataLegged r)
    (hid : idCondition ((s.drive d).found (s.leg r).sector read).id (s.drive d).curCyl (s.drive d).head (s.leg r).sector
      (s.leg r).expect = some (.disagree link)) :
    exec (.sectorEvent d n read) s = .next (s.close
      (((atMark s d n).path0Handed.withRequest (restated r .positioned .idle)).disagreement r.rid link)) := by
  obtain ⟨hentry, -, -, -, -, hpend⟩ := onSector_facts h
  have hu : (atMark s d n).entry r := hentry
  have hreleased : ((atMark s d n).path0Handed.withRequest (restated r .positioned .idle)).request? r.rid =
      some (restated r .positioned .idle) :=
    request?_entry (entry_withRequest (s := (atMark s d n).path0Handed) (q := restated r .positioned .idle) hu rfl hu.2.2)
  have hfails : (atMark s d n).blockFails r (fun s => s.dataFails d r.rid (.disagree link)) =
      ((atMark s d n).path0Handed.withRequest (restated r .positioned .idle)).disagreement r.rid link := by
    simp only [State.blockFails, releaseLeg_onPath0 (s := atMark s d n) hpath hu hdata.1, hdata.1, hpend, State.dataFails,
      hreleased]
  have hid' : idCondition ((s.drive d).found (s.leg r).sector read).id ((atMark s d n).drive d).curCyl
      ((atMark s d n).drive d).head (s.leg r).sector (s.leg r).expect = some (.disagree link) := by
    rw [atMark_drive]
    exact hid
  have hread : readCondition ((s.drive d).found (s.leg r).sector read) ((atMark s d n).drive d).curCyl
      ((atMark s d n).drive d).head (s.leg r).sector (s.leg r).expect = some (.disagree link) := by
    simp only [readCondition, hid']
  rw [exec_dataSector h hdata, ← hfails]
  by_cases hw : r.writeLeg = true
  · rw [if_pos hw]
    unfold State.writeSectorEnds
    simp only [hid']
  · rw [if_neg hw]
    unfold State.readSectorEnds
    simp only [hid', hread, checkLegCondition, reduceCtorEq, if_false, ite_self]

/-- The record of a request whose home track goes on trial, or fails its map (R128, R129). -/
theorem putRequest_retried (he : w.entry r) (tr : Option (Nat × Nat)) :
    (w.withRequest (restated r .positioned .idle)).putRequest { restated r .positioned .idle with trial := tr } =
      w.withRequest (retried r .positioned .idle tr) := by
  rw [putRequest_table (r := { restated r .positioned .idle with trial := tr }) he.2.2]
  exact withRequest_withRequest (r := restated r .positioned .idle) (q := retried r .positioned .idle tr) rfl

/-- The leg of a request whose home is on trial stands on the alternate tried (R128). -/
theorem leg_onTrial (hdata : dataLegged r) (hraw : r.raw = false) (k : Nat) :
    (w.leg (retried r .positioned .idle (some (r.blockTrack r.workBlock, k)))).track = altTrack k := by
  have hlegged : dataLegged (retried r .positioned .idle (some (r.blockTrack r.workBlock, k))) := hdata
  have hhome : (retried r .positioned .idle (some (r.blockTrack r.workBlock, k))).blockTrack
      (retried r .positioned .idle (some (r.blockTrack r.workBlock, k))).workBlock = r.blockTrack r.workBlock := rfl
  have htrial : (retried r .positioned .idle (some (r.blockTrack r.workBlock, k))).trial = some (r.blockTrack r.workBlock, k) :=
    rfl
  have hraw' : (retried r .positioned .idle (some (r.blockTrack r.workBlock, k))).raw = false := hraw
  rw [leg_dataLegged hlegged, dataLeg]
  simp only [dataTrack, hraw', htrial, hhome, if_true, Bool.false_eq_true, if_false]

/-- The home of a block that disagrees goes on trial on the free alternate named (R128). -/
theorem disagreement_tried {t k : Nat} (hpath : w.onPath0 r) (he : w.entry r) (hd : r.drive = d) (hdata : dataLegged r)
    (hisData : r.kind.isData = true) (hraw : r.raw = false) (hk : altIndex? t = some k)
    (hfree : k ∈ freeIndices (w.drive d).map.entries) (htrial : r.trial = none) :
    (w.path0Handed.withRequest (restated r .positioned .idle)).disagreement r.rid (some t) =
      (w.path0Handed.withRequest ({ r with trial := some (r.blockTrack r.workBlock, k), phase := .idle }.sentBy (w.drive d)
        (cylOf (altTrack k)))).onDrive d fun dr => dr.sentTo (cylOf (altTrack k)) := by
  have hreq : (w.path0Handed.withRequest (restated r .positioned .idle)).request? r.rid = some (restated r .positioned .idle) :=
    request?_entry (entry_withRequest (s := w.path0Handed) (q := restated r .positioned .idle) he rfl he.2.2)
  have hindex : isFreeIndex ((w.path0Handed.withRequest (restated r .positioned .idle)).drive r.drive).map.entries k = true := by
    rw [hd]
    exact mem_freeIndices.1 hfree
  have hput := putRequest_retried (w := w.path0Handed) he (some (r.blockTrack r.workBlock, k))
  have haim := aim_released (z := retried r .positioned .idle (some (r.blockTrack r.workBlock, k))) (w := w) (d := d) hpath he rfl
    hd he.2.2 (fun hpos => by
      have hpos' : r.kind = .position := hpos
      simp [hpos', Kind.isData] at hisData) hdata.1
  rw [leg_onTrial hdata hraw k] at haim
  have htrial' : (restated r .positioned .idle).trial = none := htrial
  unfold State.disagreement
  rw [hreq]
  dsimp only
  rw [Option.bind_some, hk]
  dsimp only
  refine (if_pos (Bool.and_eq_true_iff.2 ⟨hindex, Option.isNone_iff_eq_none.2 htrial'⟩)).trans ?_
  exact (congrArg (State.aim · r.rid) hput).trans haim

/-- A block that disagrees with the map otherwise ends its request (R129). -/
theorem disagreement_ends {link : Option Nat} (he : w.entry r) (hd : r.drive = d) (hdata : dataLegged r)
    (hdet : r.detached = false) (hst : r.state ≠ .waitingChain)
    (hno : r.trial ≠ none ∨ ∀ t k, link = some t → altIndex? t = some k → k ∉ freeIndices (w.drive d).map.entries) :
    (w.path0Handed.withRequest (restated r .positioned .idle)).disagreement r.rid link =
      w.path0Handed.conclude r.rid (Ending.at .ended .spareMapFault (addrOf (blockOf r.addr + r.workBlock))) := by
  obtain ⟨hop, hlabel, hformat⟩ := hdata
  have hreq : (w.path0Handed.withRequest (restated r .positioned .idle)).request? r.rid = some (restated r .positioned .idle) :=
    request?_entry (entry_withRequest (s := w.path0Handed) (q := restated r .positioned .idle) he rfl he.2.2)
  have haddr : (restated r .positioned .idle).presentAddr = addrOf (blockOf r.addr + r.workBlock) := by
    simp only [Request.presentAddr, restated, hop, hlabel, hformat]
    rfl
  have hput := putRequest_retried (w := w.path0Handed) he none
  have hends := conclude_retried (s := w.path0Handed) (r := r) (st := .positioned) (ph := .idle) (tr := none)
    (e := Ending.at .ended .spareMapFault (addrOf (blockOf r.addr + r.workBlock))) he hdet hst nofun
  unfold State.disagreement
  rw [hreq]
  dsimp only
  rw [haddr, hput, hends]
  cases hbind : link.bind altIndex? with
  | none => rfl
  | some k =>
    obtain ⟨t, hlink, hk⟩ := Option.bind_eq_some_iff.1 hbind
    refine if_neg fun hboth => ?_
    rw [Bool.and_eq_true, Option.isNone_iff_eq_none] at hboth
    obtain ⟨hfree, htrial⟩ := hboth
    rcases hno with hno | hno
    · exact hno htrial
    · refine hno t k hlink hk (mem_freeIndices.2 ?_)
      rw [← hd]
      exact hfree

end

end Sys2Proof.Proofs

/-! ### A trial that passes (R128, R130, R132), and write fault at a block's beginning (R32) -/

namespace Sys2Proof.Proofs
open Sys2Proof Sys2Proof.Machine Sys2Proof.Laws

section
variable {s w : State} {d : Drive} {n : Fin 24} {m : Nat} {read : SurfaceRead} {r q : Request} {l : Leg} {found : Sector}
  {home k : Nat} {es : List MapEntry}

/-! #### The map with the assignment adopted (R115, R130) -/

theorem findSome?_insertBy {α β : Type} {key : α → Nat} {f : α → Option β} (x : α) {xs : List α} (h : xs.findSome? f = none) :
    (insertBy key x xs).findSome? f = f x := by
  induction xs with
  | nil => cases hx : f x <;> simp [insertBy, hx]
  | cons y ys ih =>
    rw [List.findSome?_cons] at h
    have hy : f y = none := by
      cases hf : f y with
      | none => rfl
      | some b => simp [hf] at h
    have hys : ys.findSome? f = none := by simpa [hy] using h
    unfold insertBy
    split
    · cases hx : f x <;> simp [hx, hy, hys]
    · simp [hy, ih hys]

/-- A home added to the map where it had no alternate stands on the one it is assigned. -/
theorem lookupHome_addEntry (h : lookupHome es home = none) (o : Origin) :
    lookupHome (addEntry es (.assign home k o)) home = some k := by
  rw [addEntry, lookupHome, findSome?_insertBy (MapEntry.assign home k o) h]
  simp

/-- A drive's record with a trial's assignment added, the label PENDING and its update queued (R128, R130). -/
def adoptedRec (rid : Nat) (d : Drive) (home k : Nat) (dr : DriveRec) : DriveRec :=
  { dr with
    labelUpdate := some (newLabelUpdate rid d)
    map := { dr.map with entries := addEntry dr.map.entries (.assign home k .adopted), labelState := .pending } }

/-- A state with a trial's assignment added at its drive. -/
def adopted (s : State) (d : Drive) (home k : Nat) : State :=
  { s.onDrive d (adoptedRec s.nextOrder d home k) with nextOrder := s.nextOrder + 1 }

theorem adopted_drive : (adopted s d home k).drive d = adoptedRec s.nextOrder d home k (s.drive d) :=
  drive_onDrive_same (adoptedRec s.nextOrder d home k)

theorem changeMap_adopted (h : (w.drive d).labelUpdate = none) :
    w.changeMap d (addEntry · (.assign home k .adopted)) = (adopted w d home k).sparesWarned d := by
  have hqueued : (w.onDrive d fun dr => { dr with map := { dr.map with
      entries := addEntry dr.map.entries (.assign home k .adopted), labelState := .pending } }).queueLabelUpdate d =
        adopted w d home k := by
    unfold State.queueLabelUpdate
    rw [drive_onDrive_same, h]
    dsimp only
    rw [onDrive_onDrive]
    rfl
  unfold State.changeMap
  rw [hqueued, checkSpares_eq]

/-- The spares-low check changes ports, and at the drive whether it is armed (R132). -/
theorem sparesWarned_eq (w : State) (d : Drive) : ∃ P a, w.sparesWarned d =
    { w.onDrive d fun dr => { dr with map := { dr.map with armed := a } } with ports := P } := by
  unfold State.sparesWarned
  split
  · exact ⟨_, false, rfl⟩
  · exact ⟨w.ports, (w.drive d).map.armed,
      (onDrive_id (f := fun dr => { dr with map := { dr.map with armed := (w.drive d).map.armed } }) rfl).symm⟩

theorem sparesWarned_withRequest : (w.withRequest q).sparesWarned d = (w.sparesWarned d).withRequest q := by
  unfold State.sparesWarned
  split
  · next h => exact (if_pos h).symm ▸ rfl
  · next h => exact (if_neg h).symm ▸ rfl

/-! #### The block that ends a trial (R109, R128) -/

/-- A request's record once its trial has passed. -/
def untried (r : Request) : Request := { r with trial := none }

/-- The state in which a trial's assignment has been adopted, the spares-low check made. -/
def trialAdopted (s : State) (d : Drive) (home k : Nat) : State := (adopted s d home k).sparesWarned d

theorem trialAdopted_facts (he : w.entry r) : (trialAdopted w d home k).entry r
    ∧ ((trialAdopted w d home k).drive d).map.entries = addEntry (w.drive d).map.entries (.assign home k .adopted) := by
  obtain ⟨P, a, hwarned⟩ := sparesWarned_eq (adopted w d home k) d
  have hadopted : ((adopted w d home k).drive d).map.entries = addEntry (w.drive d).map.entries (.assign home k .adopted) :=
    congrArg (fun dr : DriveRec => dr.map.entries) adopted_drive
  have harmed : (((adopted w d home k).onDrive d fun dr => { dr with map := { dr.map with armed := a } }).drive d).map.entries =
      ((adopted w d home k).drive d).map.entries := by rw [drive_onDrive_same]
  rw [trialAdopted, hwarned]
  exact ⟨he, harmed.trans hadopted⟩

/-- The ID test of a block on trial adopts its assignment (R128). -/
theorem adopt_passes (he : w.entry r) (hd : r.drive = d) (hl : (w.drive d).labelUpdate = none)
    (ht : r.trial = some (home, k)) (hhome : r.blockTrack r.workBlock = home) :
    w.adopt r = (trialAdopted w d home k).withRequest (untried r) := by
  have hreq : (trialAdopted w d home k).request? r.rid = some r := request?_entry (trialAdopted_facts he).1
  unfold State.adopt
  rw [ht]
  dsimp only
  rw [if_pos hhome.symm, hd, changeMap_adopted hl]
  exact (onRequest_some hreq _).trans (putRequest_table (r := untried r) he.2.2)

/-- The leg of a request on trial stands on the alternate tried (R128). -/
theorem leg_trial (hdata : dataLegged r) (hraw : r.raw = false) (ht : r.trial = some (home, k))
    (hhome : r.blockTrack r.workBlock = home) : (s.leg r).track = altTrack k ∧ (s.leg r).expect = .alternate home := by
  rw [leg_dataLegged hdata, dataLeg]
  simp [dataTrack, hraw, ht, hhome]

/-- The leg of a request stands on the alternate its home is assigned to (R6). -/
theorem leg_assigned (hdata : dataLegged r) (hraw : r.raw = false) (ht : r.trial = none)
    (hhome : r.blockTrack r.workBlock = home) (hes : lookupHome (s.drive r.drive).map.entries home = some k) :
    (s.leg r).track = altTrack k := by
  rw [leg_dataLegged hdata, dataLeg]
  simp [dataTrack, hraw, ht, hhome, physicalTrack, hes]

/-- A sector read good that ends a trial adopts the assignment and goes on as any other (R109, R128). -/
theorem readSectorEnds_trial (he : w.entry r) (hd : r.drive = d) (hk : r.kind = .readBlocks)
    (hl : (w.drive d).labelUpdate = none) (ht : r.trial = some (home, k)) (hhome : r.blockTrack r.workBlock = home)
    (hread : readCondition found (w.drive d).curCyl (w.drive d).head l.sector l.expect = none) :
    w.readSectorEnds d r m l found =
      ((trialAdopted w d home k).withRequest (untried r)).readGood d (untried r) m l found.data.block := by
  have hid : idCondition found.id (w.drive d).curCyl (w.drive d).head l.sector l.expect = none := by
    unfold readCondition at hread
    split at hread
    · cases hread
    · assumption
  have hreq : ((trialAdopted w d home k).withRequest (untried r)).request? r.rid = some (untried r) :=
    request?_entry (entry_withRequest (q := untried r) (trialAdopted_facts he).1 rfl he.2.2)
  have huntried : (untried r).kind = .readBlocks := hk
  unfold State.readSectorEnds
  simp only [hid, if_true, adopt_passes he hd hl ht hhome, hk, reduceCtorEq, decide_false, Bool.false_eq_true, if_false, hread,
    hreq, huntried]

/-- A trial that passes, its block read with another to come on the same home in the same round (R109, R128). -/
theorem leg_trial_passes (h : s.onSector d r) (hdata : dataLegged r) (hf : r.failed = []) (hk : r.kind = .readBlocks)
    (hraw : r.raw = false) (ht : r.trial = some (home, k)) (hhome : r.blockTrack r.nextBlock = home)
    (hes : lookupHome (s.drive d).map.entries home = none) (hl : (s.drive d).labelUpdate = none)
    (hfill : r.current.state = .filling) (hc : r.nextBlock + 1 < r.count) (hr : r.nextBlock + 1 ≠ 12 * (r.round + 1))
    (hnext : r.blockTrack (r.nextBlock + 1) = home) (hn : ((s.leg r).sector + 1) % 24 = n.val)
    (hread : readCondition ((s.drive d).found (s.leg r).sector read) (s.drive d).curCyl (s.drive d).head (s.leg r).sector
      (.alternate home) = none) :
    exec (.sectorEvent d n read) s = .next (s.close ((trialAdopted (atMark s d n) d home k).withRequest
      { blockRead (untried r) ((s.drive d).found (s.leg r).sector read).data.block with readTimer := none })) := by
  obtain ⟨hentry, hd, hphase, -, -, hpend⟩ := onSector_facts h
  have hu : (atMark s d n).entry r := hentry
  have hpair : r.kind ≠ .writeAndCheck := by simp [hk]
  have hwork : r.workBlock = r.nextBlock := workBlock_next (.inl hpair)
  obtain ⟨htrack, hexpect⟩ := leg_trial (s := s) hdata hraw ht (hwork ▸ hhome)
  have hu' : ((atMark s d n).drive d).labelUpdate = none ∧ ((atMark s d n).drive d).map = (s.drive d).map := by
    rw [atMark_drive]
    exact ⟨hl, rfl⟩
  obtain ⟨hventry, hventries⟩ := trialAdopted_facts (home := home) (k := k) (d := d) hu
  have hread' : readCondition ((s.drive d).found (s.leg r).sector read) ((atMark s d n).drive d).curCyl
      ((atMark s d n).drive d).head (s.leg r).sector (s.leg r).expect = none := by
    rw [atMark_drive, hexpect]
    exact hread
  rw [exec_dataSector h hdata, if_neg (by simp [Request.writeLeg, hk]),
    readSectorEnds_trial hu hd hk hu'.1 ht (hwork ▸ hhome) hread']
  rw [hu'.2] at hventries
  generalize ((s.drive d).found (s.leg r).sector read).data.block = b
  generalize trialAdopted (atMark s d n) d home k = v at *
  have hve : (v.withRequest (untried r)).entry (untried r) := entry_withRequest hventry rfl hventry.2.2
  have hgood := readGood_on (d := d) (m := n.val) (l := s.leg r) (b := b) hve hf hpend hfill hc
  rw [withRequest_withRequest (r := untried r) (q := { blockRead (untried r) b with readTimer := none }) rfl] at hgood
  have hassigned : lookupHome (v.drive r.drive).map.entries home = some k := by
    rw [hd, hventries]
    exact lookupHome_addEntry hes _
  have hworks : (blockRead (untried r) b).workBlock = r.nextBlock + 1 := workBlock_next (.inl hpair)
  have hsteady := goOn_steady (w := v.withRequest { blockRead (untried r) b with readTimer := none })
    (q := { blockRead (untried r) b with readTimer := none }) (d := d) (m := n.val) (old := s.leg r)
    (entry_withRequest hventry rfl hventry.2.2) (fun hturn => hr (hturn.trans (congrArg (fun i => 12 * (i + 1)) (round_blockRead (untried r) b))))
    ((leg_assigned (r := { blockRead (untried r) b with readTimer := none }) hdata hraw rfl
      ((congrArg (Request.blockTrack r) hworks).trans hnext) hassigned).trans htrack.symm) (ready_blockRead (r := untried r) hk hfill b) hphase
    (leg_sector_next hdata hdata rfl (workBlock_blockRead (r := untried r) hk b) hn) (fun hw => by
      have hnot : r.writeLeg = true := (leg_writesData (s := v.withRequest { blockRead (untried r) b with
        readTimer := none }) (r := { blockRead (untried r) b with readTimer := none }) hdata).symm.trans hw
      simp [Request.writeLeg, hk] at hnot)
  exact congrArg _ (congrArg _ (hgood.trans hsteady))

/-- The machine a passed trial leaves, in the fields it changes (R128, R130, R132). -/
theorem trialAdopted_atMark : (trialAdopted (atMark s d n) d home k).withRequest q =
    State.sparesWarned { (s.onDrive d fun dr => { dr with
          sector := n.val, elapsed := 0, labelUpdate := some (newLabelUpdate s.nextOrder d)
          map := { dr.map with
            entries := addEntry (s.drive d).map.entries (.assign home k .adopted), labelState := .pending } }).withRequest q with
        nextOrder := s.nextOrder + 1 } d := by
  have hdrive : (atMark s d n).onDrive d (adoptedRec s.nextOrder d home k) = s.onDrive d fun dr => { dr with
      sector := n.val, elapsed := 0, labelUpdate := some (newLabelUpdate s.nextOrder d)
      map := { dr.map with
        entries := addEntry (s.drive d).map.entries (.assign home k .adopted), labelState := .pending } } :=
    (onDrive_onDrive _ _).trans (onDrive_congr rfl)
  rw [← hdrive, trialAdopted, ← sparesWarned_withRequest]
  rfl

/-! #### A block's beginning (R32, R98) -/

/-- The leg that a sector's mark finds claimed, nothing pending on its request, begins its block (R98). -/
theorem ownerSector_claimed (hph : r.phase = .claimed) (hp : r.pendingEnding = none) :
    (atMark s d n).ownerSector d r n.val read = (atMark s d n).beginBlock d r.rid n.val := by
  unfold State.ownerSector
  rw [hph, hp]
  cases r.op <;> rfl

/-- A block that begins with no fault in its way is passing (R98). -/
theorem beginBlock_begins (he : w.entry r) (hm : (w.leg r).sector = m)
    (hfault : (w.leg r).writesData = true → (w.drive d).writeFault = false) :
    w.beginBlock d r.rid m = w.withRequest { r with phase := .passing } := by
  have hclear : ¬((w.leg r).writesData = true ∧ (w.drive d).writeFault = true) := fun ⟨hw, hf⟩ => by simp [hfault hw] at hf
  unfold State.beginBlock
  rw [request?_entry he]
  dsimp only
  rw [if_neg (not_not.2 hm), if_neg hclear, onRequest_some (request?_entry he)]
  exact putRequest_table (r := { r with phase := .passing }) he.2.2

/-- A block to be recorded with write fault raised faults the drive (R32). -/
theorem beginBlock_faults (he : w.entry r) (hm : (w.leg r).sector = m) (hw : (w.leg r).writesData = true)
    (hf : (w.drive d).writeFault = true) : w.beginBlock d r.rid m = w.faultDrive d .writeFault (some r) := by
  unfold State.beginBlock
  rw [request?_entry he]
  dsimp only
  rw [if_neg (not_not.2 hm), if_pos ⟨hw, hf⟩]

/-- Write fault raised at a block's beginning (R32). -/
theorem leg_begins_faulted (hp : s.powered = true) (hmotor : (s.drive d).motor = .atSpeed) (hready : (s.drive d).state = .ready)
    (ho : (s.drive d).owner = some r.rid) (he : s.entry r) (hph : r.phase = .claimed) (hpend : r.pendingEnding = none)
    (hw : (s.leg r).writesData = true) (hm : (s.leg r).sector = n.val) (hf : (s.drive d).writeFault = true)
    (hfans : s.fansPlainly d) : ∃ t, exec (.sectorEvent d n read) s = .next (s.close t)
      ∧ (atMark s d n).faultedBy t d .writeFault (some (r.port, r.tag)) := by
  have hfault : ((atMark s d n).drive d).writeFault = true := by rw [atMark_drive]; exact hf
  refine ⟨(atMark s d n).faultDrive d .writeFault (some r), ?_, ?_⟩
  · rw [exec_sectorEvent_owner hp hmotor hready ho he, ownerSector_claimed hph hpend,
      beginBlock_faults (w := atMark s d n) he ((congrArg Leg.sector (leg_atMark r)).trans hm)
        ((congrArg Leg.writesData (leg_atMark r)).trans hw) hfault]
  · rw [← faultOwner_some he.2.2]
    exact faultDrive_spec (fansPlainly_onDrive hfans rfl) (by decide) (some r)

/-! #### The sector events of a quiet string (R31, R98) -/

/-- A drive neither READY nor LOADING takes the sector counter alone (R31). -/
theorem exec_sectorEvent_counter (hp : s.powered = true) (hmotor : (s.drive d).motor = .atSpeed) (hq : s.quiet)
    (hready : (s.drive d).state ≠ .ready) (hload : (s.drive d).state ≠ .loading) :
    exec (.sectorEvent d n read) s = .next (atMark s d n).flush := by
  have hsector : s.sectorEvent d n.val read = atMark s d n := by
    have hmark : (s.onDrive d fun dr => { dr with sector := n.val, elapsed := 0 }) = atMark s d n := rfl
    have hstate : ((atMark s d n).drive d).state = (s.drive d).state := by rw [atMark_drive]
    unfold State.sectorEvent
    rw [hmark]
    dsimp only
    rw [hstate]
    split
    · next hloading => exact absurd hloading hload
    · next hreads => exact absurd hreads hready
    · rfl
  have hquiet : (atMark s d n).quiet := quiet_onDrive hq rfl id Iff.rfl fun _ => id
  rw [exec_sectorEvent hp hmotor, hsector, close_quiet hquiet]

/-- An event that leaves a quiet string's arm owned and its request under way ends there. -/
theorem close_underway {b v : State} (h : v.quiet) (he : v.entry r) (hid : q.rid = r.rid) (hk : q.kind = r.kind)
    (hd : q.drive = r.drive) (hp : q.port = r.port) (hee : q.earlyEffective = r.earlyEffective) (hst : q.state = .transferring) :
    b.close (v.withRequest q) = (v.withRequest q).flush :=
  close_quiet (quiet_withRequest_moved h he hid hk hd hp hee (by simp [hst]) (by simp [hst]))

end

end Sys2Proof.Proofs

/-! ### The sector events of a leg together -/

namespace Sys2Proof.Proofs
open Sys2Proof Sys2Proof.Machine Sys2Proof.Laws

section
variable {s v : State} {d : Drive} {n : Fin 24} {read : SurfaceRead} {r q : Request}

/-- A good block of a read or write with more to come: its record and its sector left, the leg goes on (R98, R99, R101). -/
theorem exec_advanced (h : s.onSector d r) (hpath : s.onPath0 r) (hdata : dataLegged r) (ht : r.trial = none) (hf : r.failed = [])
    (hc : r.nextBlock + 1 < r.count)
    (hkind : r.kind = .readBlocks ∧ r.current.state = .filling ∧ r.blocksDone ≤ r.nextBlock
      ∨ r.kind = .writeBlocks ∧ r.current.state = .full)
    (hv : v = if r.kind = .readBlocks then atMark s d n
      else recordedAt (atMark s d n) d (s.leg r).sector ((s.drive d).found (s.leg r).sector read) r.blockToWrite)
    (hq : q = if r.kind = .readBlocks
      then { blockRead r ((s.drive d).found (s.leg r).sector read).data.block with readTimer := none } else blockDone r)
    (hread : r.kind = .readBlocks → readCondition ((s.drive d).found (s.leg r).sector read) (s.drive d).curCyl (s.drive d).head
      (s.leg r).sector (s.leg r).expect = none)
    (hid : r.kind = .writeBlocks → idCondition ((s.drive d).found (s.leg r).sector read).id (s.drive d).curCyl (s.drive d).head
      (s.leg r).sector (s.leg r).expect = none) :
    Advanced s d n r v q
      ∧ exec (.sectorEvent d n read) s = .next (s.close ((v.withRequest q).goOn d r.rid n.val (s.leg r))) := by
  obtain ⟨hentry, -, -, -, -, hpend⟩ := onSector_facts h
  have hu : (atMark s d n).entry r := hentry
  rcases hkind with ⟨hk, hfill, -⟩ | ⟨hk, hfull⟩
  · rw [if_pos hk] at hv hq
    subst hv hq
    exact ⟨advanced_read h hpath hk hfill _, by rw [exec_readGood h hdata ht hk (hread hk), readGood_on hu hf hpend hfill hc]⟩
  · rw [if_neg (by simp [hk])] at hv hq
    subst hv hq
    have a := advanced_write (n := n) h hpath hk hfull (s.leg r).sector ((s.drive d).found (s.leg r).sector read) r.blockToWrite
    refine ⟨a, ?_⟩
    rw [exec_writeSector h hdata ht (by simp [Request.writeLeg, hk]) (hid hk)]
    dsimp only
    rw [if_neg (by simp [hk]), doneGood_eq a.entry (by simp [hk]) hf hpend, if_neg (Nat.ne_of_lt hc)]

end

/-- Settles O52: each sector event of a leg by the kind of the request and by what is left of its round, track and count. -/
theorem sectorPasses : Obligations.SectorPasses := by
  refine ⟨fun d n read s hp hm hq => ⟨exec_sectorEvent_counter hp hm hq, ?_⟩, ?_, ?_, ?_, ?_, ?_⟩
  -- A leg in a quiet string: its block begins, or its block ends with another to come (R31, R98).
  · intro r hready ho hplain hd hop hlabel hformat hst hcancel hheld htrial hfailed hwf l
    have hdata : dataLegged r := ⟨hop, hlabel, hformat⟩
    obtain ⟨he, -, hdet, -⟩ := hplain
    have hquiet : (atMark s d n).quiet := quiet_atMark hq ho
    have hwf' : ((atMark s d n).drive d).writeFault = false := by rw [atMark_drive]; exact hwf
    refine ⟨fun hph hsec => ?_, fun hph hc hr htrack hn => ?_⟩
    · have hpend : r.pendingEnding = none := by simp [Request.pendingEnding, hcancel, hdet, hheld]
      have hbegin := beginBlock_begins (w := atMark s d n) (d := d) he ((congrArg Leg.sector (leg_atMark r)).trans hsec)
        fun _ => hwf'
      rw [exec_sectorEvent_owner hp hm hready ho he, ownerSector_claimed hph hpend, hbegin]
      exact congrArg _ (close_underway (r := r) hquiet he rfl rfl rfl rfl rfl hst)
    · have h : s.onSector d r := ⟨hp, hm, hready, ho, he, hd, .inl hst, hph, hcancel, hdet, hheld⟩
      refine ⟨fun hk hfull hid => ?_, fun hk hfill _ hread => ?_⟩
      · have hrecorded : (recordedAt (atMark s d n) d (s.leg r).sector ((s.drive d).found (s.leg r).sector read)
            r.blockToWrite).quiet :=
          quiet_onDrive_busy hquiet rfl (by rw [atMark_drive]; simp [DriveRec.armFree, DriveRec.record, ho]) rfl rfl rfl
        have hclose := close_underway (b := s) (q := blockDone r) hrecorded he rfl rfl rfl rfl rfl hst
        rw [leg_write_on h hdata htrial hfailed hk hc hr htrack hn hfull hwf hid, hclose, recordedAt_atMark]
        rfl
      · rw [leg_read_on h hdata htrial hfailed hk hc hr htrack hn hfill hread, ← blockRead_untimed]
        exact congrArg _ (close_underway (r := r) hquiet he rfl rfl rfl rfl rfl hst)
  -- What each data kind does with a good sector (R109 to R113).
  · intro d n read s r h hop hlabel hformat htrial hfailed u l found at_ recorded idGood readGood q
    have hdata : dataLegged r := ⟨hop, hlabel, hformat⟩
    have hrecorded : recorded = recordedAt (atMark s d n) d l.sector found r.blockToWrite :=
      (recordedAt_atMark l.sector found r.blockToWrite).symm
    obtain ⟨hentry, -, -, -, -, hpend⟩ := onSector_facts h
    have hu : (atMark s d n).entry r := hentry
    rw [hrecorded]
    refine ⟨fun hk hc hid => leg_write_last h hdata htrial hfailed hk hc hid, ?_, ?_, ?_, ?_⟩
    · intro hk hc hread x
      have hx : x = r.retime (blockRead r found.data.block) (s.port r.port).settings.waitTimer := by rw [blockRead_eq]
      rw [hx]
      exact leg_read_last h hdata htrial hfailed hk hc hread
    · intro hk hread
      have hexec := exec_checkSector (n := n) h hdata htrial hk hread
      have hkind : r.kind ≠ .readBlocks := by simp [hk]
      refine ⟨fun hsame => ?_, fun hcompare hdiffers hpath => ?_⟩
      · have hagrees : ¬(r.compare = true ∧ found.data.block ≠ r.blockToWrite) := fun ⟨hcompare, hdiffers⟩ =>
          hsame.elim (fun hno => by simp [hno] at hcompare) hdiffers
        rw [hexec, if_neg hagrees]
        refine ⟨fun hc => ?_, fun hc hr hready htrack hn => ?_⟩
        · rw [doneGood_eq hu hkind hfailed hpend, if_pos hc]
          rfl
        · rw [doneGood_check_on h hdata hfailed hk hc hr hready htrack hn]
          rfl
      · rw [hexec, if_pos ⟨hcompare, hdiffers⟩, mismatch_onPath0 (w := atMark s d n) hpath hu hdata hpend hk]
        rfl
    · intro hk hchk hid last
      exact ⟨fun hsec hlast hwf hn => leg_pair_on h hdata htrial hk hchk hsec hlast hwf hn hid,
        fun hend hpath => leg_pair_turns h hdata htrial hk hchk hend hpath hid⟩
    · intro hk hchk hread hb
      rw [exec_pairSector h hdata htrial hk hchk hread hb]
      refine ⟨fun hw hn => ?_, fun hw hc => ?_, ?_⟩
      · rw [pairChecked_on h hdata hfailed hk hchk hw hn]
        rfl
      · rw [pairChecked_eq hu hk hfailed hpend, if_neg (Nat.not_lt.2 hw), if_pos hc]
        rfl
      · intro hw hc hpath turns x c
        have hturned : x.turned = { (pairDone r).turned with phase := .idle } := by
          rw [turned_eq, turned_eq]
          rfl
        rw [pairChecked_turns h hdata hfailed hk hw hc hpath rfl rfl, hturned]
        by_cases hturns : turns
        · rw [if_pos hturns, if_pos hturns, if_pos hturns, if_pos hturns]
          rfl
        · rw [if_neg hturns, if_neg hturns, if_neg hturns, if_neg hturns]
          rfl
  -- The end of a round, or of a track, in a read or a write (R99, R101 to R103).
  · intro d n read s r h hpath hop hlabel hformat htrial hfailed hc hkind l dr found at_ u v q slipped next hread hid
    have hdata : dataLegged r := ⟨hop, hlabel, hformat⟩
    obtain ⟨-, hd, hph, hdet, -, -⟩ := onSector_facts h
    have hv : v = if r.kind = .readBlocks then atMark s d n
        else recordedAt (atMark s d n) d l.sector found r.blockToWrite := by
      rw [recordedAt_atMark]
      rfl
    have hq : q = if r.kind = .readBlocks then { blockRead r found.data.block with readTimer := none } else blockDone r := by
      rw [blockRead_untimed]
      rfl
    obtain ⟨a, hexec⟩ := exec_advanced h hpath hdata htrial hfailed hc hkind hv hq hread hid
    have hkinds : r.kind = .readBlocks ∨ r.kind = .writeBlocks := hkind.imp And.left And.left
    rw [hexec]
    refine ⟨fun hr htrack => ?_, fun hr htrack => ?_⟩
    · intro other
      refine ⟨fun hk => ?_, fun hk => ?_⟩
      · intro x
        have hqk : q = { blockRead r found.data.block with readTimer := none } := hq.trans (if_pos hk)
        have hturned : ∀ y, readTurned q y = x.setHalf (!r.curHalf) y := fun y => readTurned_of (by rw [hqk]; rfl) y
        have hport : v.port r.port = s.port r.port := by rw [hv, if_pos hk]; rfl
        obtain ⟨hfill, hdone⟩ : r.current.state = .filling ∧ r.blocksDone ≤ r.nextBlock := by simpa [hk] using hkind
        obtain ⟨hon, hslips⟩ := a.turn_read (m := n.val) hk hdata hph hdet
          (by rw [hqk]; exact (congrArg Half.state (current_blockRead r _)).trans hfill)
          (by rw [hqk]; exact Nat.lt_succ_of_le hdone) hr hc htrack
        refine ⟨fun hempty hn => ?_, fun hdrain => ?_⟩
        · rw [hon hempty hn, hturned]
        · rw [hslips hdrain, hturned, hport]
      · obtain ⟨hon, hslips⟩ := a.turn_write (m := n.val) hk hdata hph hr hc htrack
        exact ⟨fun hfull hn hwf => by rw [hon hfull hn hwf], fun hnot => by rw [hslips hnot]⟩
    · intro switches
      rw [a.leaves_track hr htrack]
      refine ⟨fun hs hn hclear => ?_, fun hs hk hp => ?_, fun hs hk hp hauto htally => ?_, fun hs => ?_⟩
      · rw [a.switch_on hkinds hdata htrial hd hph hs hn hclear]
        rfl
      · rw [a.switch_protected hk hdata hs hp]
      · rw [a.switch_suspect hk hdata htrial hd hs hp hauto htally]
      · rw [a.switch_none hkinds hdata hd hs]
        rfl
  -- A map disagreement (R128, R129).
  · intro d n read s r link h hpath hop hlabel hformat hisData hraw l dr found u b hid
    have hdata : dataLegged r := ⟨hop, hlabel, hformat⟩
    obtain ⟨hentry, hd, -, hdet, hst, -⟩ := onSector_facts h
    have hu : (atMark s d n).entry r := hentry
    have hentries : ((atMark s d n).drive d).map.entries = dr.map.entries := by rw [atMark_drive]
    rw [exec_disagreement h hpath hdata hid]
    refine ⟨fun t k hlink hk hfree htrial => ?_, fun hno => ?_⟩
    · rw [hlink, disagreement_tried (w := atMark s d n) hpath hu hd hdata hisData hraw hk (hentries ▸ hfree) htrial, atMark_drive]
      rfl
    · rw [disagreement_ends (w := atMark s d n) hu hd hdata hdet hst (hentries ▸ hno)]
      rfl
  -- A trial that passes (R128, R130, R132).
  · intro d n read s r k h hop hlabel hformat hfailed hk hraw es home l found ht hes hupdate hfill hc hr hnext hn hread
    have hrecord : { blockRead (untried r) found.data.block with readTimer := none } =
        { r.setHalf r.curHalf { r.current with blocks := r.current.blocks ++ [found.data.block] } with
          nextBlock := r.nextBlock + 1, retries := 0, readTimer := none, trial := none } := by
      rw [setHalf_eq]
      rfl
    rw [leg_trial_passes h ⟨hop, hlabel, hformat⟩ hfailed hk hraw ht rfl hes hupdate hfill hc hr hnext hn hread,
      trialAdopted_atMark, hrecord]
  -- Write fault at a block's beginning (R32).
  · intro d n read s r hp hm hready ho he hd hph hpend hw hsec hf hfans
    exact leg_begins_faulted hp hm hready ho he hph hpend hw hsec hf hfans

end Sys2Proof.Proofs

/-! ### What keeps the invariant: the state's own operations (R50, R163, R165, R178)

Every lemma of `State.Inv` says of one operation that it leads from a state with the invariant to one with it, so that the lemma
of an event reads as the event does: `h.cutLeg.foldEarly` for `(s.cutLeg d).foldEarly d`. Only an entry made in the table needs
more than the invariant, which is room and the next place (`State.Inv.enter`). -/

namespace Sys2Proof.Machine
open Sys2Proof Sys2Proof.Laws Sys2Proof.Proofs

set_option Elab.async false

section
variable {s t : State} {d : Drive} {p : Port}

/-! #### Changes of one part of the state -/

/-- The invariant is of the ports, the settings, the packs and the table with its next place alone. -/
theorem State.Inv.of_parts (h : s.Inv) (hp : ∀ p : Port, (s.port p).holds → (t.port p).holds)
    (hg : s.settings.inRange → t.settings.inRange) (hd : ∀ d : Drive, (s.drive d).packHolds → (t.drive d).packHolds)
    (ht : s.tableHolds → t.tableHolds) : t.Inv := by
  obtain ⟨ports, settings, packs, table⟩ := h
  exact ⟨fun p => hp p (ports p), hg settings, fun d => hd d (packs d), ht table⟩

/-- A change of nothing the invariant is of, places given apart (R50). -/
theorem State.Inv.same (h : s.Inv) (hp : t.ports = s.ports := by rfl) (hg : t.settings = s.settings := by rfl)
    (hd : t.drives = s.drives := by rfl) (ht : t.table = s.table := by rfl)
    (hn : s.nextOrder ≤ t.nextOrder := by exact Nat.le_refl _) : t.Inv := by
  refine h.of_parts (fun p => by simp only [State.port, hp]; exact id) (by rw [hg]; exact id)
    (fun d => by simp only [State.drive, hd]; exact id) ?_
  simp only [State.tableHolds, ht]
  exact fun ⟨room, rising, given⟩ => ⟨room, rising, fun r hr => Nat.lt_of_lt_of_le (given r hr) hn⟩

/-- Entries that leave the table, or change in anything but their place, leave it as it can stand. -/
theorem State.Inv.retabled (h : s.Inv) (ht : (t.table.map (·.rid)).Sublist (s.table.map (·.rid)))
    (hp : t.ports = s.ports := by rfl) (hg : t.settings = s.settings := by rfl) (hd : t.drives = s.drives := by rfl)
    (hn : t.nextOrder = s.nextOrder := by rfl) : t.Inv := by
  refine h.of_parts (fun p => by simp only [State.port, hp]; exact id) (by rw [hg]; exact id)
    (fun d => by simp only [State.drive, hd]; exact id) ?_
  rintro ⟨room, rising, given⟩
  refine ⟨?_, rising.sublist ht, fun r hr => ?_⟩
  · have := ht.length_le
    simp only [List.length_map] at this
    omega
  · obtain ⟨q, hq, e⟩ := List.mem_map.1 (ht.subset (List.mem_map_of_mem hr))
    rw [hn, ← e]
    exact given q hq

theorem State.Inv.withStartList (h : s.Inv) {l : List Drive} : ({ s with startList := l } : State).Inv := h.same

theorem State.Inv.withPower (h : s.Inv) {b : Bool} : ({ s with powered := b } : State).Inv := h.same

theorem State.Inv.withGate (h : s.Inv) {b : Bool} : ({ s with gateOpen := b } : State).Inv := h.same

/-- A drive's record changed, its pack left in canonical form. -/
theorem State.Inv.onDriveOf {f : DriveRec → DriveRec} (h : s.Inv)
    (hf : (s.drive d).packHolds → (f (s.drive d)).packHolds) : (s.onDrive d f).Inv := by
  refine h.of_parts (fun _ => id) id (fun e => ?_) id
  by_cases he : e = d
  · rw [he, drive_onDrive_same]; exact hf
  · rw [drive_onDrive_other f he]; exact id

/-- A drive's record changed, its pack left as it was. -/
theorem State.Inv.onDrive {f : DriveRec → DriveRec} (h : s.Inv) (hf : ∀ dr : DriveRec, (f dr).pack = dr.pack := by exact fun _ => rfl) :
    (s.onDrive d f).Inv :=
  h.onDriveOf fun hd => by simp only [DriveRec.packHolds, hf]; exact hd

/-- A port's record changed to one that holds. -/
theorem State.Inv.onPortOf {f : PortRec → PortRec} (h : s.Inv) (hf : (s.port p).holds → (f (s.port p)).holds) :
    (s.onPort p f).Inv := by
  refine h.of_parts (fun q => ?_) id (fun _ => id) id
  by_cases hq : q = p
  · rw [hq, port_onPort_same]; exact hf
  · rw [port_onPort_other f hq]; exact id

/-- A port's record changed, of whatever port. -/
theorem State.Inv.onPort {f : PortRec → PortRec} (h : s.Inv)
    (hf : ∀ pr : PortRec, pr.holds → (f pr).holds := by exact fun _ hpr => hpr) : (s.onPort p f).Inv := h.onPortOf (hf _)

/-- An operation made for each of a list keeps the invariant where it does so for one. -/
theorem State.Inv.foldl {α : Type} {f : State → α → State} (h : s.Inv) (hf : ∀ (s : State) (a : α), s.Inv → (f s a).Inv)
    (l : List α) : (l.foldl f s).Inv := by
  induction l generalizing s with
  | nil => exact h
  | cons a l ih => exact ih (hf s a h)

theorem State.Inv.forPorts {f : State → Port → State} (h : s.Inv) (hf : ∀ (s : State) (p : Port), s.Inv → (f s p).Inv) :
    (forPorts f s).Inv := h.foldl hf _

theorem State.Inv.forDrives {f : State → Drive → State} (h : s.Inv) (hf : ∀ (s : State) (d : Drive), s.Inv → (f s d).Inv) :
    (forDrives f s).Inv := h.foldl hf _

/-! #### Requests, paths, segments, the buffer -/

/-- Entries changed in anything but their place. -/
theorem State.Inv.rewritten (h : s.Inv) {f : Request → Request} (hf : ∀ r : Request, (f r).rid = r.rid) :
    ({ s with table := s.table.map f } : State).Inv := by
  refine h.retabled ?_
  have places : (s.table.map f).map (·.rid) = s.table.map (·.rid) := by
    rw [List.map_map]
    exact List.map_congr_left fun r _ => hf r
  exact places ▸ List.Sublist.refl _

theorem State.Inv.putRequest (h : s.Inv) {r : Request} : (s.putRequest r).Inv := by
  simp only [State.putRequest]
  split
  · exact h.onDrive
  · refine h.rewritten fun q => ?_
    split
    · next hq => exact hq.symm
    · rfl

theorem State.Inv.onRequest (h : s.Inv) {n : Nat} {f : Request → Request} : (s.onRequest n f).Inv := by
  simp only [State.onRequest]
  split
  · exact h.putRequest
  · exact h

theorem State.Inv.releasePath (h : s.Inv) {n : Nat} : (s.releasePath n).Inv := by
  obtain ⟨a, b, l, e, _⟩ := releasePath_eq s n
  exact e ▸ h.same

theorem State.Inv.leavePaths (h : s.Inv) {n : Nat} : (s.leavePaths n).Inv :=
  State.Inv.releasePath (s := { s with preference := s.preference.filter (· != n) }) h.same

theorem State.Inv.setSegment (h : s.Inv) {i : Fin 8} {x : Option Nat} : (s.setSegment i x).Inv := h.same

theorem State.Inv.freeSegmentsOf (h : s.Inv) {n : Nat} : (s.freeSegmentsOf n).Inv := by
  obtain ⟨v, e, _⟩ := freeSegmentsOf_eq s n
  exact e ▸ h.same

theorem State.Inv.leaveBuffer (h : s.Inv) {n : Nat} : (s.leaveBuffer n).Inv := h.same

theorem State.Inv.setSlot (h : s.Inv) {i : Nat} {x : Slot} : (s.setSlot i x).Inv := h.same

/-! #### Packs (R7, R17) -/

/-- Recording a sector leaves the pack in canonical form. -/
theorem DriveRec.packHolds.record {dr : DriveRec} (h : dr.packHolds) {n : Nat} {x : Sector} : (dr.record n x).packHolds := by
  intro q hq
  obtain ⟨p, hp, rfl⟩ := Option.map_eq_some_iff.1 hq
  split
  · next hn => exact (Pack_write_spec (h p hp)).2.2 hn
  · exact h p hp

theorem State.Inv.record (h : s.Inv) {n : Nat} {x : Sector} : (s.onDrive d fun dr => dr.record n x).Inv := h.onDriveOf (·.record)

theorem State.Inv.cutLeg (h : s.Inv) : (s.cutLeg d).Inv := by
  simp only [State.cutLeg]
  split
  · exact h
  · split
    · split
      · exact h
      · exact State.Inv.same h.record
    · exact h

/-! #### Notices (R163, R165) -/

/-- A posting keeps one record for each kind and subject, its occurrences in range (R163). -/
theorem PortRec.listHolds.postInto {pr : PortRec} (h : pr.listHolds) (k : NoticeKind) (sub : Subject) (det : NoticeDetails) :
    ({ pr with notices := Machine.postInto pr.notices k sub det } : PortRec).listHolds := by
  obtain ⟨once, counts⟩ := h
  simp only [PortRec.listHolds, Machine.postInto]
  split
  · constructor
    · have subjects : (pr.notices.map fun n => if n.kind = k ∧ n.subject = sub then { n with occurrences := min 255 (n.occurrences + 1) }
          else n).map (fun n => (n.kind, n.subject)) = pr.notices.map fun n => (n.kind, n.subject) := by
        rw [List.map_map]
        refine List.map_congr_left fun n _ => ?_
        simp only [Function.comp]
        split <;> rfl
      exact subjects ▸ once
    · intro n hn
      obtain ⟨m, hm, rfl⟩ := List.mem_map.1 hn
      have := counts m hm
      split
      · simp only; omega
      · exact this
  · next hnew =>
    simp only [List.any_eq_true, decide_eq_true_eq, not_exists, not_and] at hnew
    constructor
    · rw [List.map_append, List.nodup_append]
      refine ⟨once, by simp, ?_⟩
      rintro _ hx _ hy rfl
      obtain ⟨n, hn, e⟩ := List.mem_map.1 hx
      simp only [List.map_cons, List.map_nil, List.mem_singleton] at hy
      obtain ⟨hk, hsub⟩ := Prod.mk.inj (e.trans hy)
      exact hnew n hn hk hsub
    · intro n hn
      rcases List.mem_append.1 hn with hn | hn
      · exact counts n hn
      · obtain rfl := List.mem_singleton.1 hn
        exact ⟨Nat.le_refl 1, Nat.le_add_left 1 254⟩

/-- A port whose line is set anew holds where its settings, counts and list do (R165). -/
theorem PortRec.holds.withLine {pr : PortRec} (hg : pr.settings.inRange) (hc : pr.countsHold) (hl : pr.listHolds) : pr.withLine.holds :=
  ⟨rfl, hg, hc, hl⟩

theorem State.Inv.post (h : s.Inv) {k : NoticeKind} {sub : Subject} {det : NoticeDetails} : (s.post p k sub det).Inv :=
  h.onPort fun _ ⟨_, settings, counts, list⟩ => PortRec.holds.withLine settings counts (list.postInto k sub det)

theorem State.Inv.postAll (h : s.Inv) {k : NoticeKind} : (s.postAll k d).Inv := h.forPorts fun _ _ h => h.post

/-! #### Attention and reservations (R157 to R162) -/

theorem State.Inv.setAttention (h : s.Inv) {r : AttnReason} : (s.setAttention d p r).Inv := h.onDrive.post

theorem State.Inv.freeWanted (h : s.Inv) : (s.freeWanted d).Inv := by
  refine (h.forPorts fun s p h => ?_).onDrive
  split
  · exact h.post
  · exact h

theorem State.Inv.endReservation (h : s.Inv) : (s.endReservation d).Inv := h.onDrive.freeWanted

theorem State.Inv.loseReservation (h : s.Inv) : (s.loseReservation d).Inv := by
  simp only [State.loseReservation]
  split
  · exact h.post.endReservation
  · exact h

/-! #### Windows met, counts, deferred records (R146 to R149, R175) -/

theorem State.Inv.reportAfter (h : s.Inv) {r : Request} : (s.reportAfter r).Inv := by
  simp only [State.reportAfter]
  split
  · exact h.onRequest.foldl (fun _ _ h => h.post) _
  · exact h

theorem State.Inv.raiseRecovered (h : s.Inv) : (s.raiseRecovered p d).Inv := h.onDrive
theorem State.Inv.acceptClass (h : s.Inv) {c : DataClass} : (s.acceptClass p d c).Inv := h.onDrive
theorem State.Inv.raiseSuspect (h : s.Inv) {n : Nat} : (s.raiseSuspect d n).Inv := h.onDrive
theorem State.Inv.clearDeferred (h : s.Inv) : (s.clearDeferred p d).Inv := h.onDrive

theorem State.Inv.fold (h : s.Inv) {r : Request} {e : Ending} : (s.fold r e).Inv := by
  simp only [State.fold]
  split
  · exact h.onDrive.post
  · exact h.onDrive

/-! #### The spare map (R130, R132) -/

theorem State.Inv.checkSpares (h : s.Inv) : (s.checkSpares d).Inv := by
  simp only [State.checkSpares]
  split
  · exact h.postAll.onDrive
  · exact h

/-- A label update takes the next place of the arrival order (R50, R75). -/
theorem State.Inv.queueLabelUpdate (h : s.Inv) : (s.queueLabelUpdate d).Inv := by
  simp only [State.queueLabelUpdate]
  split
  · exact h
  · have moved := h.onDrive (d := d) (f := fun dr => { dr with labelUpdate := some (newLabelUpdate s.nextOrder d) })
    exact moved.same (hn := Nat.le_succ s.nextOrder)

theorem State.Inv.changeMap (h : s.Inv) {f : List MapEntry → List MapEntry} : (s.changeMap d f).Inv :=
  h.onDrive.queueLabelUpdate.checkSpares

/-! ### What keeps the invariant: endings (R35, R38, R55, R56, R63) -/

theorem State.Inv.queueReport (h : s.Inv) {r : Report} : (s.queueReport p r).Inv := h.onPort

theorem State.Inv.reportEnding (h : s.Inv) {r : Request} {e : Ending} {b : Body} : (s.reportEnding r e b).Inv := h.queueReport

theorem State.Inv.markStanding (h : s.Inv) {n : Nat} {st : Standing} : (s.markStanding p n st).Inv := h.onPort

theorem State.Inv.withoutEntry (h : s.Inv) {n : Nat} : (withoutEntry s n).Inv := h.retabled (List.filter_sublist.map _)

/-- A request leaves the table: what it held is given back, and its entry goes (R63 step 4). -/
theorem State.Inv.leaveTable (h : s.Inv) {n : Nat} : (s.leaveTable n).Inv := by
  cases hr : s.request? n with
  | none => simpa only [State.leaveTable, hr] using h
  | some r =>
    have folded : (folded s r).Inv := by
      unfold folded
      split
      · split
        · exact h.fold
        · exact h
      · exact h
    have gave : (gaveUp s r n).Inv := by
      unfold gaveUp
      refine folded.leavePaths.freeSegmentsOf.leaveBuffer.onDrive fun dr => ?_
      unfold lost
      split <;> rfl
    rw [leaveTable_some hr]
    split
    · exact gave.onDrive
    · exact gave.withoutEntry

end

end Sys2Proof.Machine

namespace Sys2Proof.Machine
open Sys2Proof Sys2Proof.Laws Sys2Proof.Proofs

set_option Elab.async false

section
variable {s t : State} {d : Drive} {p : Port}

/-- Either branch of a choice. -/
theorem State.Inv.ite (h : s.Inv) (h' : t.Inv) {c : Prop} [Decidable c] : (if c then s else t).Inv := by
  split
  · exact h
  · exact h'

/-! #### Requests that end (R35, R38, R55, R56, R63) -/

theorem State.Inv.breakChain (h : s.Inv) (n m : Nat) : (s.breakChain n m).Inv := by
  induction n generalizing s m with
  | zero => exact h
  | succ n ih =>
    simp only [State.breakChain]
    split
    · exact h
    · exact ih h.reportEnding.markStanding.leaveTable _

theorem State.Inv.endBroken (h : s.Inv) {r : Request} {e : Ending} {b : Body} : (s.endBroken r e b).Inv :=
  (h.reportEnding.reportAfter.markStanding.breakChain _ _).leaveTable

theorem State.Inv.foldEarly (h : s.Inv) : (s.foldEarly d).Inv := by
  refine h.foldl (fun s n h => ?_) _
  split
  · exact h.putRequest.leaveTable.ite h
  · exact h

theorem State.Inv.fanEnd (h : s.Inv) {n : Nat} {e : Ending} : (s.fanEnd n e).Inv := by
  simp only [State.fanEnd]
  split
  · exact h
  · exact h.leaveTable.ite (h.endBroken.ite h.endBroken)

theorem State.Inv.dropLabelUpdate (h : s.Inv) : (s.dropLabelUpdate d).Inv := by
  simp only [State.dropLabelUpdate]
  split
  · exact h.leaveTable
  · exact h

theorem State.Inv.stopDrive (h : s.Inv) {except : Option Nat} : (s.stopDrive d except).Inv :=
  (h.cutLeg.onDrive.foldEarly.foldl (fun _ _ h => h.fanEnd) _).dropLabelUpdate.loseReservation

theorem State.Inv.faultDrive (h : s.Inv) {k : FaultKind} {owner : Option Request} : (s.faultDrive d k owner).Inv :=
  (h.cutLeg.onDrive.foldEarly.foldl (fun _ _ h => h.fanEnd) _).dropLabelUpdate.postAll

/-! #### Drive-control requests as they begin (R23, R36, R40, R152) -/

theorem State.Inv.joinStartList (h : s.Inv) : (s.joinStartList d).Inv := h.ite h.same

theorem State.Inv.beginStart (h : s.Inv) : (s.beginStart d).1.Inv := by
  simp only [State.beginStart]
  split
  case h_2 | h_3 => exact h.joinStartList
  all_goals exact h

theorem State.Inv.beginStop (h : s.Inv) {n : Nat} : (s.beginStop n d).1.Inv := by
  simp only [State.beginStop]
  split
  · exact h.stopDrive
  · exact h
  · exact h

theorem State.Inv.beginClear (h : s.Inv) {n : Nat} : (s.beginClear n d).1.Inv := by
  simp only [State.beginClear]
  split
  · exact h
  · split
    · split
      · exact h
      · exact h.onDrive
    · dsimp only; exact h.onDrive.stopDrive
    · dsimp only; exact h.onDrive.stopDrive
    · dsimp only; exact h.onDrive.loseReservation

theorem State.Inv.beginSync (h : s.Inv) {r : Request} : (s.beginSync r).1.Inv := by
  simp only [State.beginSync]
  split <;> exact h

theorem State.Inv.beginControl (h : s.Inv) {r : Request} : (s.beginControl r).1.Inv := by
  simp only [State.beginControl]
  split
  · exact h.beginStart
  · exact h.beginStop
  · exact h.beginClear
  · exact h.beginSync

/-! #### DONE endings and chains released (R55) -/

theorem State.Inv.reportDone (h : s.Inv) {r : Request} {e : Ending} {b : Body} : (s.reportDone r e b).Inv :=
  h.reportEnding.reportAfter.markStanding

theorem State.Inv.releaseChain (h : s.Inv) (n m : Nat) : (s.releaseChain n m).Inv := by
  induction n generalizing s m with
  | zero => exact h
  | succ n ih =>
    simp only [State.releaseChain]
    split
    · exact h
    · next y _ =>
      split
      · exact ih h.reportDone.leaveTable _
      · split
        · split
          · exact h.putRequest
          · exact h.endBroken
        · have began := (h.putRequest (r := { y with state := .controlWait })).beginControl (r := { y with state := .controlWait })
          split
          · next e => rwa [e] at began
          · next e =>
            rw [e] at began
            split
            · exact ih (State.Inv.reportDone began).leaveTable _
            · exact State.Inv.endBroken began

theorem State.Inv.releaseBehind (h : s.Inv) {n : Nat} : (s.releaseBehind n).Inv := h.releaseChain _ _

theorem State.Inv.endDone (h : s.Inv) {r : Request} {e : Ending} {b : Body} : (s.endDone r e b).Inv :=
  h.reportDone.leaveTable.releaseBehind

theorem State.Inv.conclude (h : s.Inv) {n : Nat} {e : Ending} : (s.conclude n e).Inv := by
  simp only [State.conclude]
  split
  · exact h
  · exact (h.leaveTable.ite h.putRequest.leaveTable).ite (h.leaveTable.ite (h.endDone.ite h.endBroken))

theorem State.Inv.concludeDone (h : s.Inv) {n : Nat} : (s.concludeDone n).Inv := by
  simp only [State.concludeDone]
  split
  · exact h
  · exact h.leaveTable.ite h.reportDone.leaveTable

theorem State.Inv.endTogether (h : s.Inv) {ns : List Nat} : (s.endTogether ns).Inv :=
  (h.foldl (fun _ _ h => h.concludeDone) _).foldl (fun _ _ h => h.releaseBehind) _

theorem State.Inv.earlyReport (h : s.Inv) {n : Nat} : (s.earlyReport n).Inv := by
  simp only [State.earlyReport]
  split
  · exact h
  · exact h.reportDone.onRequest.releaseBehind

/-! ### What keeps the invariant: the arm (R26 to R30, R40, R144) -/

theorem State.Inv.arrive (h : s.Inv) {n : Nat} : (s.arrive d n).Inv := by
  simp only [State.arrive]
  split
  · exact h.onDrive
  · exact h.onDrive.conclude.ite h.onDrive.putRequest

theorem State.Inv.seekTo (h : s.Inv) {n c : Nat} : (s.seekTo d n c).Inv := h.arrive.ite h.leavePaths.onDrive.onRequest

theorem State.Inv.recalibrateFor (h : s.Inv) {n : Nat} {after : AfterHome} : (s.recalibrateFor d n after).Inv :=
  h.leavePaths.onDrive.onRequest

theorem State.Inv.aim (h : s.Inv) {n : Nat} : (s.aim n).Inv := by
  simp only [State.aim]
  split
  · exact h
  · exact h.seekTo

theorem State.Inv.loadSeek (h : s.Inv) {c : Nat} : (s.loadSeek d c).Inv := h.onDrive.ite h.onDrive

theorem State.Inv.beginLoad (h : s.Inv) : (s.beginLoad d).Inv := h.onDrive

theorem State.Inv.endCancelled (h : s.Inv) : (s.endCancelled d).Inv := h.foldl (fun _ _ h => h.conclude) _

theorem State.Inv.onCylinderEvent (h : s.Inv) {c : Nat} : (s.onCylinderEvent d c).Inv := by
  refine State.Inv.ite h.onDrive.onDrive ?_
  split
  · exact h.onDrive.arrive
  · exact h.onDrive.onDrive.endCancelled

theorem State.Inv.clearingDone (h : s.Inv) : (s.clearingDone d).Inv :=
  (h.onDrive.forPorts fun _ _ h => h.ite h.setAttention).endTogether

theorem State.Inv.homeEvent (h : s.Inv) : (s.homeEvent d).Inv := by
  refine State.Inv.ite h.onDrive.loadSeek (State.Inv.ite h.onDrive.clearingDone ?_)
  split
  · exact h.onDrive.onDrive.endCancelled
  · split
    · exact h.onDrive.onDrive.conclude
    · exact h.onDrive.onDrive.aim
    · exact h.onDrive.onDrive.seekTo

theorem State.Inv.movementFails (h : s.Inv) {n : Nat} {k : FaultKind} {after : AfterHome} : (s.movementFails d n k after).Inv :=
  h.faultDrive.ite h.onDrive.recalibrateFor

theorem State.Inv.seekExpiry (h : s.Inv) : (s.seekExpiry d).Inv := by
  simp only [State.seekExpiry]
  split
  · exact h.movementFails
  · exact h.endCancelled.faultDrive

theorem State.Inv.clearingFails (h : s.Inv) : (s.clearingFails d).Inv :=
  (h.onDrive.foldl (fun _ _ h => h.conclude) _).postAll

theorem State.Inv.recalibrateExpiry (h : s.Inv) : (s.recalibrateExpiry d).Inv := by
  refine h.clearingFails.ite ?_
  split
  · exact h.movementFails
  · exact h.endCancelled.faultDrive

/-! ### What keeps the invariant: halves, sparing and recovery (R101 to R103, R118 to R129, R138 to R146) -/

theorem State.Inv.giveWanted (h : s.Inv) {r : Request} {n : Nat} : (s.giveWanted r n).Inv := h.onPort

theorem State.Inv.putData (h : s.Inv) {r q : Request} : (s.putData r q).Inv := h.putRequest

theorem State.Inv.toggle (h : s.Inv) {r : Request} : (s.toggle r).Inv := h.putData.giveWanted.ite h.putData

theorem State.Inv.grantSegments (h : s.Inv) {r : Request} : (s.grantSegments r).Inv := by
  simp only [State.grantSegments]
  split
  · have granted {q : Request} {a b : Fin 8} {x : Option Nat} : (((s.setSegment a x).setSegment b x).putRequest q).Inv :=
      h.setSegment.setSegment.putRequest
    exact (granted.giveWanted.giveWanted.ite granted.giveWanted).ite granted
  · exact h

theorem State.Inv.putOp (h : s.Inv) {n : Nat} {op : SpareOp} : (s.putOp n op).Inv := h.onRequest

theorem State.Inv.opLegNext (h : s.Inv) {n : Nat} {op : SpareOp} : (s.opLegNext n op).Inv := h.putOp.aim

theorem State.Inv.closeOp (h : s.Inv) {n : Nat} : (s.closeOp n).Inv := h.leaveBuffer.onRequest

theorem State.Inv.opEnds (h : s.Inv) {n : Nat} {e : Ending} : (s.opEnds n e).Inv := by
  simp only [State.opEnds]
  split
  · exact h.closeOp
  · exact h.closeOp.conclude

theorem State.Inv.resume (h : s.Inv) {n m : Nat} : (s.resume n m).Inv := by
  simp only [State.resume]
  split
  · exact h
  · split
    · exact h.putRequest.conclude
    · exact h.putRequest.conclude.ite (State.Inv.aim (h.putRequest.toggle.ite h.putRequest))

theorem State.Inv.spareDone (h : s.Inv) {n : Nat} {op : SpareOp} : (s.spareDone n op).Inv := by
  simp only [State.spareDone]
  split
  · exact h
  · have spared {d : Drive} {f : List MapEntry → List MapEntry} {g : DriveRec → List Suspect} {x : Request → Request} :
        ((((s.changeMap d f).onDrive d fun dr => { dr with suspects := g dr }).closeOp n).onRequest n x).Inv :=
      h.changeMap.onDrive.closeOp.onRequest
    split
    · split
      · exact spared
      · exact spared.conclude
    · exact spared.resume

theorem State.Inv.opWrite (h : s.Inv) {n : Nat} {op : SpareOp} : (s.opWrite n op).Inv :=
  State.Inv.opLegNext (s := { s with buffer := { s.buffer with slots := voidUnread s.buffer.slots } }) h.same

theorem State.Inv.opReadEnd (h : s.Inv) {n : Nat} {op : SpareOp} : (s.opReadEnd n op).Inv := by
  simp only [State.opReadEnd]
  split
  · exact h.opWrite
  · refine State.Inv.ite (State.Inv.ite ?_ h.putOp) h.opWrite
    split
    · exact h.putOp.recalibrateFor
    · exact h.putOp

theorem State.Inv.beginOp (h : s.Inv) {n : Nat} {op : SpareOp} {slots : List Slot} : (s.beginOp n op slots).Inv := by
  have held : ({ s with buffer := { s.buffer with holder := some n, slots := slots } } : State).Inv := h.same
  simp only [State.beginOp]
  split
  · exact held.onRequest.opLegNext
  · exact held.onRequest.opWrite

theorem State.Inv.beginSparing (h : s.Inv) {n m : Nat} {o : Origin} {slots : List Slot} : (s.beginSparing n m o slots).Inv := by
  simp only [State.beginSparing]
  split
  · exact h
  · split
    · exact h.onRequest.opEnds
    · exact h.beginOp

theorem State.Inv.chooseReturn (h : s.Inv) {r : Request} : (s.chooseReturn r).Inv := by
  simp only [State.chooseReturn]
  split
  · exact h.opEnds
  · exact h.beginOp

theorem State.Inv.autoSparing (h : s.Inv) {n : Nat} : (s.autoSparing n).Inv := by
  simp only [State.autoSparing]
  split
  · exact h.leaveBuffer
  · exact h.beginSparing

theorem State.Inv.askSparing (h : s.Inv) {n : Nat} : (s.askSparing n).Inv := by
  simp only [State.askSparing]
  split
  · exact State.Inv.autoSparing (h.leavePaths (n := n)).same
  · exact State.Inv.onRequest (h.leavePaths (n := n)).same

theorem State.Inv.attemptFails (h : s.Inv) {n : Nat} {op : SpareOp} : (s.attemptFails n op).Inv := by
  simp only [State.attemptFails]
  split
  · exact h
  · refine State.Inv.ite ?_ h.changeMap.opEnds
    split
    · exact h.changeMap.opLegNext
    · exact h.changeMap.opEnds

theorem State.Inv.returnCheckFails (h : s.Inv) {n : Nat} {op : SpareOp} : (s.returnCheckFails n op).Inv :=
  h.opLegNext.ite h.opEnds

theorem State.Inv.returnChecked (h : s.Inv) {n : Nat} {op : SpareOp} : (s.returnChecked n op).Inv := by
  simp only [State.returnChecked]
  split
  · exact h
  · exact h.changeMap.opLegNext

theorem State.Inv.opLegEnd (h : s.Inv) {n : Nat} {op : SpareOp} : (s.opLegEnd n op).Inv := by
  simp only [State.opLegEnd]
  split
  · exact h.opReadEnd
  · exact h.opReadEnd
  · exact h.opLegNext
  · exact h.opLegNext
  · exact h.spareDone
  · exact h.opLegNext
  · exact h.returnChecked
  · exact h.opEnds

theorem State.Inv.opProtected (h : s.Inv) {n : Nat} {op : SpareOp} : (s.opProtected n op).Inv := by
  simp only [State.opProtected]
  split
  · exact h.spareDone
  · exact h.opEnds
  · exact h.opEnds

/-! #### Recovery (R138 to R146) -/

theorem State.Inv.labelFails (h : s.Inv) {n : Nat} : (s.labelFails n).Inv := by
  simp only [State.labelFails]
  split
  · exact h
  · exact h.onDrive.postAll.conclude

theorem State.Inv.labelAttemptFails (h : s.Inv) {n : Nat} {j : LabelJob} : (s.labelAttemptFails n j).Inv :=
  h.onRequest.aim.ite h.labelFails

theorem State.Inv.spentRetries (h : s.Inv) {n : Nat} {x : Detail} : (s.spentRetries n x).Inv := by
  simp only [State.spentRetries]
  split
  · exact h
  · refine h.opEnds.ite ?_
    split
    · exact h.labelAttemptFails
    · exact h.conclude

theorem State.Inv.seekCheckThen (h : s.Inv) {n : Nat} {f : Request → Request} : (s.seekCheckThen d n f).Inv := by
  simp only [State.seekCheckThen]
  split
  · exact h
  · exact h.faultDrive.ite (h.spentRetries.ite h.putRequest.recalibrateFor)

theorem State.Inv.seekCheck (h : s.Inv) {n : Nat} : (s.seekCheck d n).Inv := h.seekCheckThen

theorem State.Inv.retry (h : s.Inv) {n : Nat} : (s.retry d n).Inv := by
  simp only [State.retry]
  split
  · exact h.onRequest
  · exact h.onRequest.recalibrateFor.ite h.onRequest

theorem State.Inv.retryOr (h : s.Inv) {n : Nat} (ht : t.Inv) : (s.retryOr d n t).Inv := by
  simp only [State.retryOr]
  split
  · exact h
  · exact ht.ite h.retry

theorem State.Inv.recovered (h : s.Inv) {r : Request} {i track : Nat} : (s.recovered r i track).Inv := by
  simp only [State.recovered]
  split
  · exact h
  · exact State.Inv.onRequest (h.raiseRecovered.raiseSuspect.ite h.raiseRecovered)

theorem State.Inv.disagreement (h : s.Inv) {n : Nat} {link : Option Nat} : (s.disagreement n link).Inv := by
  simp only [State.disagreement]
  split
  · exact h
  · split
    · exact h.putRequest.conclude
    · exact h.putRequest.aim.ite h.putRequest.conclude

theorem State.Inv.dataFails (h : s.Inv) {n : Nat} {c : Condition} : (s.dataFails d n c).Inv := by
  simp only [State.dataFails]
  split
  · exact h
  · split
    · exact h.disagreement
    · exact h.conclude
    · exact h.putRequest.seekCheck
    · exact h.putRequest.askSparing.ite (h.putRequest.onRequest.retryOr h.putRequest.onRequest.spentRetries)
    · have noted {q : Request} {f : Request → Request} {c : Prop} [Decidable c] :
          (if c then (s.putRequest q).onRequest n f else s.putRequest q).Inv := h.putRequest.onRequest.ite h.putRequest
      exact noted.retryOr (noted.askSparing.ite noted.spentRetries)

theorem State.Inv.labelBlockFails (h : s.Inv) {n : Nat} {j : LabelJob} {c : Condition} : (s.labelBlockFails d n j c).Inv := by
  simp only [State.labelBlockFails]
  split
  · exact h.seekCheck
  · exact h.labelAttemptFails
  · exact h.retryOr h.labelAttemptFails

theorem State.Inv.formatFails (h : s.Inv) {n : Nat} {f : FormatJob} {c : Condition} : (s.formatFails d n f c).Inv := by
  simp only [State.formatFails]
  split
  · exact h.seekCheck
  · refine h.onRequest.ite ?_
    split
    · exact h.conclude
    · exact h

theorem State.Inv.opCheckFails (h : s.Inv) {n : Nat} {op : SpareOp} {c : Condition} : (s.opCheckFails d n op c).Inv := by
  simp only [State.opCheckFails]
  split
  · exact h.seekCheckThen
  · exact h.returnCheckFails.ite h.attemptFails

end

end Sys2Proof.Machine

/-! ### What keeps the invariant: blocks and loads (R24, R25, R93 to R99, R109 to R113, R128, R131, R135, R145) -/

namespace Sys2Proof.Machine
open Sys2Proof Sys2Proof.Laws Sys2Proof.Proofs

set_option Elab.async false

section
variable {s t : State} {d : Drive} {p : Port}

/-! #### The claim (R94, R95) -/

theorem State.Inv.grantPath (h : s.Inv) {n : Nat} (ht : s.grantPath n = some t) : t.Inv := by
  simp only [State.grantPath] at ht
  split at ht
  · exact Option.some.inj ht ▸ h.same
  · split at ht
    · exact Option.some.inj ht ▸ h.same
    · split at ht
      · exact Option.some.inj ht ▸ h.same
      · split at ht
        · exact Option.some.inj ht ▸ h.same
        · cases ht

theorem State.Inv.pathMiss (h : s.Inv) {n : Nat} : (s.pathMiss n).Inv := by
  simp only [State.pathMiss]
  split
  · exact h
  · exact State.Inv.ite h.putRequest.same h.putRequest

theorem State.Inv.foundProtected (h : s.Inv) {n : Nat} : (s.foundProtected n).Inv := by
  simp only [State.foundProtected]
  split
  · exact h
  · split
    · exact h.opProtected
    · exact h.conclude

theorem State.Inv.claimPath (h : s.Inv) {n : Nat} {l : Leg} : (s.claimPath d n l).Inv := by
  simp only [State.claimPath]
  split
  · exact h.pathMiss
  · next hg => exact (h.grantPath hg).onDrive.onRequest

theorem State.Inv.claim (h : s.Inv) {r : Request} : (s.claim d r).Inv :=
  h.seekTo.ite (h.foundProtected.ite (h.ite (h.askSparing.ite h.claimPath)))

/-! #### A block's beginning, and what follows a good block (R98, R99, R101, R109 to R113) -/

theorem State.Inv.beginBlock (h : s.Inv) {m n : Nat} : (s.beginBlock d m n).Inv := by
  simp only [State.beginBlock]
  split
  · exact h
  · exact h.onRequest.ite (h.faultDrive.ite h.onRequest)

theorem State.Inv.releaseLeg (h : s.Inv) {n : Nat} : (s.releaseLeg n).Inv := h.releasePath.onRequest

theorem State.Inv.nextLeg (h : s.Inv) {m n : Nat} {l : Leg} : (s.nextLeg d m n l).Inv := by
  simp only [State.nextLeg]
  split
  · exact h
  · exact (h.releaseLeg.foundProtected.ite (h.releaseLeg.askSparing.ite h.onDrive.beginBlock)).ite h.releaseLeg.aim

theorem State.Inv.goOn (h : s.Inv) {m n : Nat} {l : Leg} : (s.goOn d m n l).Inv := by
  simp only [State.goOn]
  split
  · exact h
  · next r _ =>
    have turned : (if r.roundComplete = true then s.toggle r else s).Inv := h.toggle.ite h
    split
    · exact turned
    · exact (turned.beginBlock.ite turned.releaseLeg).ite turned.nextLeg

theorem State.Inv.stopAt (h : s.Inv) {n : Nat} {e : Ending} : (s.stopAt n e).Inv := h.releaseLeg.conclude

theorem State.Inv.readGood (h : s.Inv) {r : Request} {n : Nat} {l : Leg} {b : Block} : (s.readGood d r n l b).Inv := by
  simp only [State.readGood]
  split
  · exact h.putData.recovered.stopAt
  · exact h.putData.recovered.onRequest.ite h.putData.recovered.goOn

theorem State.Inv.doneGood (h : s.Inv) {r : Request} {n : Nat} {l : Leg} : (s.doneGood d r n l).Inv := by
  simp only [State.doneGood]
  split
  · exact h.putData.recovered.stopAt
  · refine State.Inv.ite ?_ h.putData.recovered.goOn
    split
    · exact h.putData.recovered.conclude
    · exact h.putData.recovered

theorem State.Inv.pairWritten (h : s.Inv) {r : Request} {n : Nat} {l : Leg} : (s.pairWritten d r n l).Inv := by
  simp only [State.pairWritten]
  split
  · exact h.stopAt
  · exact h.putRequest.onRequest.releaseLeg.ite h.putRequest.beginBlock

theorem State.Inv.pairChecked (h : s.Inv) {r : Request} {n : Nat} {l : Leg} : (s.pairChecked d r n l).Inv := by
  simp only [State.pairChecked]
  split
  · exact h.putData.recovered.stopAt
  · refine h.putData.recovered.beginBlock.ite ?_
    split
    · exact h.putData.recovered
    · refine h.putData.recovered.conclude.ite (State.Inv.aim (State.Inv.releaseLeg ?_))
      exact h.putData.recovered.putRequest.toggle.ite h.putData.recovered.putRequest

theorem State.Inv.mismatch (h : s.Inv) {r : Request} : (s.mismatch r).Inv := h.releaseLeg.conclude

theorem State.Inv.adopt (h : s.Inv) {r : Request} : (s.adopt r).Inv := by
  simp only [State.adopt]
  split
  · exact h
  · exact h.changeMap.onRequest.ite h

/-! #### The end of a sector (R98) -/

theorem State.Inv.blockFails (h : s.Inv) {r : Request} {k : State → State} (hk : ∀ u : State, u.Inv → (k u).Inv) :
    (s.blockFails r k).Inv := by
  simp only [State.blockFails]
  split
  · exact h.releaseLeg.conclude
  · exact hk _ h.releaseLeg

theorem State.Inv.writeSectorEnds (h : s.Inv) {r : Request} {n : Nat} {l : Leg} {x : Sector} :
    (s.writeSectorEnds d r n l x).Inv := by
  simp only [State.writeSectorEnds]
  split
  · exact h.blockFails fun _ h => h.dataFails
  · split
    · exact h.adopt.record
    · exact h.adopt.record.pairWritten.ite h.adopt.record.doneGood

theorem State.Inv.readSectorEnds (h : s.Inv) {r : Request} {n : Nat} {l : Leg} {x : Sector} :
    (s.readSectorEnds d r n l x).Inv := by
  have tested {c : Prop} [Decidable c] : (if c then s.adopt r else s).Inv := h.adopt.ite h
  simp only [State.readSectorEnds]
  split
  · exact tested.blockFails fun _ h => h.dataFails
  · split
    · exact tested
    · exact tested.pairChecked.ite (tested.readGood.ite (tested.mismatch.ite tested.doneGood))

theorem State.Inv.labelSectorEnds (h : s.Inv) {r : Request} {n : Nat} {l : Leg} {j : LabelJob} {x : Sector} :
    (s.labelSectorEnds d r n l j x).Inv := by
  simp only [State.labelSectorEnds]
  split
  · split
    · exact h.blockFails fun _ h => h.labelBlockFails
    · split
      · exact h.record.onRequest.stopAt
      · exact h.record.onRequest.beginBlock.ite h.record.onRequest.releaseLeg
  · split
    · exact h.blockFails fun _ h => h.labelBlockFails
    · split
      · exact h.stopAt
      · exact h.onRequest.beginBlock.ite (h.releaseLeg.onDrive.conclude.ite h.releaseLeg.labelAttemptFails)

theorem State.Inv.formatGood (h : s.Inv) {r : Request} : (s.formatGood r).Inv := by
  simp only [State.formatGood]
  split
  · exact State.Inv.conclude (h.onDrive.changeMap.ite h.onDrive)
  · exact h.onDrive.conclude

theorem State.Inv.formatSectorEnds (h : s.Inv) {r : Request} {n : Nat} {l : Leg} {f : FormatJob} {x : Sector} :
    (s.formatSectorEnds d r n l f x).Inv := by
  simp only [State.formatSectorEnds]
  split
  · split
    · exact h.record.stopAt
    · exact h.record.onRequest.beginBlock.ite h.record.onRequest.releaseLeg
  · split
    · exact h.blockFails fun _ h => h.formatFails
    · split
      · exact h.stopAt
      · exact h.onRequest.beginBlock.ite h.releaseLeg.formatGood

theorem State.Inv.opReadSector (h : s.Inv) {r : Request} {n : Nat} {l : Leg} {op : SpareOp} {x : Sector} :
    (s.opReadSector d r n l op x).Inv := by
  refine h.releaseLeg.seekCheckThen.ite ?_
  have read {c c' c'' : Prop} [Decidable c] [Decidable c'] [Decidable c''] {i : Nat} {y z : Slot} :
      (if c then if c' then s.setSlot i y else if c'' then s.setSlot i z else s else s).Inv :=
    (h.setSlot.ite (h.setSlot.ite h)).ite h
  exact read.putOp.beginBlock.ite read.releaseLeg.opReadEnd

theorem State.Inv.opWriteSector (h : s.Inv) {r : Request} {n : Nat} {l : Leg} {op : SpareOp} {x : Sector} :
    (s.opWriteSector d r n l op x).Inv := h.record.putOp.beginBlock.ite h.record.releaseLeg.opLegEnd

theorem State.Inv.opCheckSector (h : s.Inv) {r : Request} {n : Nat} {l : Leg} {op : SpareOp} {x : Sector} :
    (s.opCheckSector d r n l op x).Inv := by
  simp only [State.opCheckSector]
  split
  · exact h.releaseLeg.opCheckFails
  · exact h.putOp.beginBlock.ite h.releaseLeg.opLegEnd

theorem State.Inv.sectorEnds (h : s.Inv) {r : Request} {n : Nat} {read : SurfaceRead} : (s.sectorEnds d r n read).Inv := by
  simp only [State.sectorEnds]
  split
  · split
    · exact h.opReadSector
    · exact h.opReadSector
    · exact h.opCheckSector
    · exact h.opCheckSector
    · exact h.opWriteSector
  · split
    · exact h.labelSectorEnds
    · split
      · exact h.formatSectorEnds
      · exact h.writeSectorEnds.ite h.readSectorEnds

theorem State.Inv.ownerSector (h : s.Inv) {r : Request} {n : Nat} {read : SurfaceRead} : (s.ownerSector d r n read).Inv := by
  simp only [State.ownerSector]
  split
  · exact h.sectorEnds
  · split
    · exact h.stopAt
    · exact h.beginBlock
  · refine State.Inv.ite ?_ (h.claim.ite h)
    split
    · exact h.stopAt
    · exact h

/-! #### A load (R24, R25, R145) -/

theorem State.Inv.loadComplete (h : s.Inv) {label : Option LabelImage} : (s.loadComplete d label).Inv := by
  simp only [State.loadComplete]
  refine State.Inv.endTogether (State.Inv.forPorts (State.Inv.checkSpares (State.Inv.onDrive ?_)) fun _ _ h => h.setAttention)
  exact h.onDrive.postAll.ite h.onDrive

theorem State.Inv.loadRecalibrate (h : s.Inv) : (s.loadRecalibrate d).Inv := h.onDrive

theorem State.Inv.loadFails (h : s.Inv) {c : Condition} : (s.loadFails d c).Inv := by
  simp only [State.loadFails]
  split
  · exact h.loadComplete
  · exact h.faultDrive.ite (h.loadComplete.ite h.onDrive.loadRecalibrate)
  · exact h.loadComplete.ite (h.onDrive.loadRecalibrate.ite h.onDrive)

theorem State.Inv.loadSector (h : s.Inv) {n : Nat} {read : SurfaceRead} : (s.loadSector d n read).Inv := by
  simp only [State.loadSector]
  split
  · split
    · exact h.loadFails
    · exact h.onDrive.ite h.loadComplete
  · exact h.onDrive.ite h

theorem State.Inv.sectorEvent (h : s.Inv) {n : Nat} {read : SurfaceRead} : (s.sectorEvent d n read).Inv := by
  simp only [State.sectorEvent]
  split
  · exact h.onDrive.loadSector.ite h.onDrive
  · split
    · exact h.onDrive.ownerSector
    · exact h.onDrive
  · exact h.onDrive

/-! ### What keeps the invariant: what follows in an event (R76 to R91, R118, R153, R181) -/

/-- The passes of a decision change no entry's place (R81). -/
theorem State.Inv.countPasses (h : s.Inv) {n : Nat} : (s.countPasses d n).Inv := by
  simp only [State.countPasses]
  refine State.Inv.onDrive (h.rewritten fun r => ?_)
  split <;> rfl

theorem State.Inv.beginLabel (h : s.Inv) {r : Request} : (s.beginLabel r).Inv := h.onRequest.aim

theorem State.Inv.firstState (h : s.Inv) {r : Request} : (s.firstState r).Inv := by
  simp only [State.firstState]
  split
  · exact h.seekTo
  · exact h.recalibrateFor
  · exact h.beginSparing
  · exact h.chooseReturn
  · exact h.conclude.ite h.onRequest.aim
  · exact h.beginLabel
  · exact h.beginLabel
  · exact h.grantSegments.aim

theorem State.Inv.decideArm (h : s.Inv) {r : Request} : (s.decideArm d r).Inv := h.countPasses.putRequest.onDrive.firstState

theorem State.Inv.grantBuffer? (h : s.Inv) (ht : s.grantBuffer? = some t) : t.Inv := by
  simp only [State.grantBuffer?] at ht
  split at ht
  · exact Option.some.inj ht ▸ State.Inv.autoSparing h.same
  · cases ht

theorem State.Inv.settleReports (h : s.Inv) (n : Nat) (os : SyncOutcomes) (ended : List Nat) :
    (s.settleReports n os ended).1.Inv := by
  induction n generalizing s os ended with
  | zero => exact h
  | succ n ih =>
    simp only [State.settleReports]
    split
    · exact h
    · split
      · exact ih h.endBroken _ _
      · exact ih h.concludeDone _ _

theorem State.Inv.settleSync? (h : s.Inv) {os os' : SyncOutcomes} (ht : s.settleSync? os = some (t, os')) : t.Inv := by
  simp only [State.settleSync?] at ht
  split at ht
  · cases ht
  · obtain ⟨rfl, _⟩ := Prod.mk.inj (Option.some.inj ht)
    exact ((h.settleReports _ _ _).foldl (fun _ _ h => h.clearDeferred.ite h) _).foldl (fun _ _ h => h.releaseBehind) _

theorem State.Inv.beginStartOf (h : s.Inv) : (s.beginStartOf d).Inv := State.Inv.onDrive h.same

theorem State.Inv.settleStep (h : s.Inv) {os os' : SyncOutcomes} {q q' : TestPlan} (ht : s.settleStep os q = some (t, os', q')) :
    t.Inv := by
  simp only [State.settleStep] at ht
  split at ht
  · next hg =>
    obtain ⟨rfl, _⟩ := Prod.mk.inj (Option.some.inj ht)
    exact h.grantBuffer? hg
  · split at ht
    · next hs =>
      obtain ⟨rfl, _⟩ := Prod.mk.inj (Option.some.inj ht)
      exact h.settleSync? hs
    · split at ht
      · obtain ⟨rfl, _⟩ := Prod.mk.inj (Option.some.inj ht)
        exact h.decideArm
      · obtain ⟨d, _, hd⟩ := Option.map_eq_some_iff.1 ht
        obtain ⟨rfl, _⟩ := Prod.mk.inj hd
        exact h.beginStartOf

theorem State.Inv.settleBy (h : s.Inv) (n : Nat) (os : SyncOutcomes) (q : TestPlan) : (s.settleBy n os q).Inv := by
  induction n generalizing s os q with
  | zero => exact h
  | succ n ih =>
    simp only [State.settleBy]
    split
    · next hs => exact ih (h.settleStep hs) _ _
    · exact h

theorem State.Inv.settleWith (h : s.Inv) {q : TestPlan} : (s.settleWith q).Inv := h.settleBy _ _ _

theorem State.Inv.settle (h : t.Inv) : (s.settle t).Inv := h.settleWith

theorem State.Inv.testAfterJoin (h : s.Inv) : (s.testAfterJoin d).Inv := by
  simp only [State.testAfterJoin]
  split
  · exact State.Inv.settleWith h.decideArm
  · exact h

/-- Frames waiting and sent have no part in the invariant. -/
theorem State.Inv.sameButFrames (h : s.Inv) (ht : s.sameButFrames t) : t.Inv := by
  obtain ⟨frame, ports⟩ := ht
  refine h.of_parts (fun p => ?_) ?_ (fun d => ?_) ?_
  · obtain ⟨w, x, e⟩ := ports p
    rw [e]
    exact id
  all_goals
    rw [frame]
    exact id

theorem State.Inv.pump (h : s.Inv) : (s.pump p).Inv := h.sameButFrames pump_sameButFrames

theorem State.Inv.flush (h : s.Inv) : s.flush.Inv := h.sameButFrames flush_sameButFrames

theorem State.Inv.close (h : t.Inv) : (s.close t).Inv := State.Inv.flush h.settle

theorem State.Inv.answer (h : s.Inv) {r : Report} : (s.answer p r).Inv := h.queueReport.pump

/-! ### What keeps the invariant: the ports (R102 to R108, R178 to R182) -/

theorem State.Inv.portEnding (h : s.Inv) {n : Nat} {e : Ending} : (s.portEnding n e).Inv := by
  simp only [State.portEnding]
  split
  · exact h
  · exact h.ite (h.putRequest.ite h.conclude)

theorem State.Inv.frameErrorEnding (h : s.Inv) {r : Request} : (s.frameErrorEnding r).Inv := State.Inv.portEnding h.same

theorem State.Inv.dataOutFor (h : s.Inv) {r : Request} {n : Nat} {b : Block} : (s.dataOutFor r n b).Inv :=
  (State.Inv.ite h.putRequest.earlyReport.close h.putRequest).ite h.frameErrorEnding.close

/-- A count that saturates stays in its range (R178). -/
theorem saturates (n : Nat) : min 65535 (n + 1) ≤ 65535 := Nat.min_le_left ..

theorem State.Inv.countUnknownTag (h : s.Inv) : (s.onPort p PortRec.countUnknownTag).Inv :=
  h.onPort fun _ ⟨line, settings, ⟨errors, _, overruns⟩, list⟩ => ⟨line, settings, ⟨errors, saturates _, overruns⟩, list⟩

theorem State.Inv.countFrameError (h : s.Inv) : (s.onPort p PortRec.countFrameError).Inv :=
  h.onPort fun _ ⟨line, settings, ⟨_, tags, overruns⟩, list⟩ => ⟨line, settings, ⟨saturates _, tags, overruns⟩, list⟩

theorem State.Inv.countOverrun (h : s.Inv) : (s.onPort p PortRec.countOverrun).Inv :=
  h.onPort fun _ ⟨line, settings, ⟨errors, tags, _⟩, list⟩ => ⟨line, settings, ⟨errors, tags, saturates _⟩, list⟩

theorem State.Inv.overrun (h : s.Inv) : (s.overrun p).Inv := h.countOverrun.post

theorem State.Inv.dataOutFrame (h : s.Inv) {tag : Octet} {n : Nat} {b : Block} : (s.dataOutFrame p tag n b).Inv := by
  simp only [State.dataOutFrame]
  split
  · exact h.countUnknownTag
  · exact h.countFrameError.ite (h.countUnknownTag.ite h.dataOutFor)

theorem State.Inv.badFrameAt (h : s.Inv) {os : List Octet} : (s.badFrameAt p os).Inv := by
  refine State.Inv.ite ?_ h.countFrameError
  split
  · exact State.Inv.ite h.countFrameError.frameErrorEnding.close h.countFrameError
  · exact h.countFrameError

theorem State.Inv.deliver (h : s.Inv) {m n : Nat} : (s.deliver m n).Inv := by
  simp only [State.deliver]
  split
  · exact h
  · exact h.ite (h.putData.conclude.ite h.putData)

theorem State.Inv.wantedSent (h : s.Inv) {w : WantedFrame} : (s.wantedSent w).Inv := by
  simp only [State.wantedSent]
  split
  · exact h
  · exact h.putRequest.ite h

theorem State.Inv.waitExpiry (h : s.Inv) {r : Request} {one : Bool} : (s.waitExpiry r one).Inv := by
  simp only [State.waitExpiry]
  split
  · exact h
  · exact h.putRequest.portEnding.close

theorem State.Inv.readExpiry (h : s.Inv) {r : Request} : (s.readExpiry r).Inv := by
  simp only [State.readExpiry]
  split
  · exact h
  · exact h.putRequest.ite h.putRequest.conclude.close

end

end Sys2Proof.Machine

/-! ### What keeps the invariant: arrivals (R44 to R56) -/

namespace Sys2Proof.Machine
open Sys2Proof Sys2Proof.Laws Sys2Proof.Proofs

set_option Elab.async false

section
variable {s t : State} {d : Drive} {p : Port} {k : Kind} {f : RequestFrame} {o : Operands}

theorem State.Inv.denialEffect (h : s.Inv) {x : Denial} : (s.denialEffect p f x).Inv := by
  simp only [State.denialEffect]
  split
  · exact h.onDrive
  · exact h.onDrive
  · exact h.clearDeferred
  · exact h.post
  · exact h

theorem State.Inv.deny (h : s.Inv) {n : Nat} {k : Option Kind} {x : Denial} : (s.deny p n k f x).Inv :=
  State.Inv.answer (h.denialEffect.onPort.ite h.denialEffect)

/-- An arrival keeps the invariant where what carries out a request that passes the checks does. -/
theorem State.Inv.arrival (h : s.Inv) {acc : State → Drive → Operands → State}
    (hacc : ∀ d o, s.checks p k f = .ok (d, o) → (acc s d o).Inv) : (s.arrival p k f acc).Inv := by
  refine h.ite (h.overrun.ite ?_)
  split
  · exact h.deny
  · next hc => exact hacc _ _ hc

/-- A request that passes check 7 and takes an entry finds one free (R51). -/
theorem room_of_checks (h : s.checks p k f = .ok (d, o)) (hk : k.tableEntry = true)
    (he : takesNoEntry k o (s.predecessor? p k) = false) : s.table.length < 32 := by
  have free : s.tableIsFull p = false := by
    simp only [State.checks] at h
    split at h
    · cases h
    · split at h
      · cases h
      · split at h
        · cases h
        · next o' _ =>
          by_contra full
          rw [Bool.not_eq_false] at full
          repeat' split at h
          all_goals simp_all
  simp only [State.tableIsFull, Bool.or_eq_false_iff, decide_eq_false_iff_not, Nat.not_le] at free
  exact free.2

/-- Outside a chain, or behind a member ended DONE, a request takes an entry unless it is a data request of count 0 (R50). -/
theorem takesNoEntry_opening {m : Option ChainMark} (hm : ∀ x ∈ m, x.standing = .endedDone)
    (hr : ¬(k.isData = true ∧ (s.newRequest p d k f o).count = 0)) : takesNoEntry k o m = false := by
  have opening : takesNoEntry k o m = takesNoEntry k o none := by
    cases m with
    | none => rfl
    | some x => simp only [takesNoEntry, hm x rfl]
  rw [opening]
  simp only [takesNoEntry]
  split
  · simpa [State.newRequest] using hr
  · rfl

theorem State.Inv.mark (h : s.Inv) {n : Option Nat} {st : Standing} : (s.mark p f d n st).Inv := h.onPort

/-- An entry made with the next place, where there is room for it (R50, R51). -/
theorem State.Inv.enter (h : s.Inv) {r : Request} (hr : r.rid = s.nextOrder) (room : s.table.length < 32) : (s.enter p f r).Inv := by
  refine State.Inv.mark ?_
  refine h.of_parts (fun _ => id) id (fun _ => id) ?_
  rintro ⟨_, rising, given⟩
  refine ⟨by simpa using room, ?_, ?_⟩
  · rw [List.map_append, List.pairwise_append]
    refine ⟨rising, List.pairwise_singleton .., fun a ha b hb => ?_⟩
    obtain ⟨q, hq, rfl⟩ := List.mem_map.1 ha
    obtain rfl : b = r.rid := by simpa using hb
    exact hr ▸ given q hq
  · intro q hq
    rcases List.mem_append.1 hq with hq | hq
    · exact Nat.lt_succ_of_lt (given q hq)
    · obtain rfl := List.mem_singleton.1 hq
      exact hr ▸ Nat.lt_succ_self _

theorem State.Inv.noteClass (h : s.Inv) {r : Request} : (s.noteClass r).Inv := h.acceptClass.ite h

theorem noteClass_frame (s : State) (r : Request) : (s.noteClass r).table = s.table ∧ (s.noteClass r).nextOrder = s.nextOrder := by
  simp only [State.noteClass]
  split <;> exact ⟨rfl, rfl⟩

theorem State.Inv.enqueue (h : s.Inv) {r : Request} (hr : r.rid = s.nextOrder) (room : s.table.length < 32) : (s.enqueue p f r).Inv :=
  State.Inv.flush (h.enter hr room).testAfterJoin

theorem State.Inv.enterControl (h : s.Inv) {r : Request} (hr : r.rid = s.nextOrder) (room : s.table.length < 32) :
    (s.enterControl p f r).Inv := by
  have began := (h.enter (p := p) (f := f) (r := { r with state := .controlWait }) hr room).beginControl
    (r := { r with state := .controlWait })
  simp only [State.enterControl]
  split
  · next e => exact State.Inv.close (by rwa [e] at began)
  · next e => exact State.Inv.close (State.Inv.conclude (by rwa [e] at began))

/-- A request that has passed the checks is taken with room for its entry, or takes none (R50, R54). -/
theorem State.Inv.acceptEntry (h : s.Inv) (hk : k.tableEntry = true) (hc : s.checks p k f = .ok (d, o)) :
    (State.acceptEntry k p f s d o).Inv := by
  have place : (s.newRequest p d k f o).rid = (s.noteClass (s.newRequest p d k f o)).nextOrder := (noteClass_frame _ _).2.symm
  have room : takesNoEntry k o (s.port p).marker = false → (s.noteClass (s.newRequest p d k f o)).table.length < 32 := fun he => by
    rw [(noteClass_frame _ _).1]
    exact room_of_checks hc hk (by simpa only [State.predecessor?, hk, if_true] using he)
  have noted : (s.noteClass (s.newRequest p d k f o)).Inv := h.noteClass
  simp only [State.acceptEntry]
  split
  · exact h.mark.answer
  · next hm =>
    obtain ⟨m, hm, hst⟩ := Option.map_eq_some_iff.1 hm
    exact State.Inv.flush (noted.enter place (room (by simp [hm, takesNoEntry, hst])))
  · next hother hunended =>
    have opening : ∀ x ∈ (s.port p).marker, x.standing = .endedDone := fun x hx => by
      have hs : s.memberStanding p = some x.standing := by simp [State.memberStanding, Option.mem_def.1 hx]
      cases e : x.standing with
      | endedDone => rfl
      | unended => exact absurd (e ▸ hs) hunended
      | endedOther => exact absurd (e ▸ hs) hother
    split
    · exact noted.mark.answer
    · next hz =>
      have room := room (takesNoEntry_opening opening hz)
      split
      · refine State.Inv.enqueue noted ?_ room
        exact place
      · exact noted.enterControl place room

/-! ### What keeps the invariant: resets (R17 to R19, R43, R71, R72, R184) -/

/-- A spindle sensed leaves the pack it held, none, or a well-formed one (R19). -/
theorem DriveRec.packHolds.sensed {dr : DriveRec} (h : dr.packHolds) {x : SpindleSense} (hx : x.valid = true) : (dr.sensed x).packHolds := by
  intro q hq
  simp only [DriveRec.sensed] at hq
  simp only [SpindleSense.valid] at hx
  split at hq
  · exact h q hq
  · cases hq
  · next e =>
    obtain rfl := Option.some.inj hq
    rw [e] at hx
    exact (Bool.and_eq_true_iff.1 hx).1

theorem State.Inv.powerUp (h : s.Inv) {x : PowerOnSense} (hx : ∀ d : Drive, (x.spindles[d]).valid = true) : (s.powerUp x).Inv := by
  obtain ⟨_, _, packs, _⟩ := h
  refine ⟨fun p => ?_, ?_, fun d => ?_, ?_⟩
  · rw [powerUp_port]
    exact portRec_initial_holds ..
  · exact resetMeetsInvariant.2.1
  · rw [powerUp_drive, powerOnDrive]
    have kept : ({ DriveRec.initial with pack := (s.drive d).pack } : DriveRec).packHolds := packs d
    split
    · exact kept.sensed (hx d)
    · exact kept
  · exact resetMeetsInvariant.2.2.2

theorem State.Inv.powerDown (h : s.Inv) : s.powerDown.Inv := by
  have cut : (Machine.forDrives State.cutLeg s).Inv := h.forDrives fun _ _ h => h.cutLeg
  exact cut.withPower

theorem State.Inv.freeWindows (h : s.Inv) : (s.freeWindows p).Inv := by
  refine h.foldl (fun s i h => ?_) _
  split
  · exact State.Inv.ite h.same h
  · exact h

theorem State.Inv.abandon (h : s.Inv) {n : Nat} : (s.abandon n).Inv := by
  simp only [State.abandon]
  split
  · exact h
  · exact h.ite (h.putRequest.ite h.leaveTable)

theorem State.Inv.dropReservations (h : s.Inv) : (s.dropReservations p).Inv :=
  (h.forDrives fun _ _ h => h.endReservation.ite h).forDrives fun _ _ h => h.onDrive

theorem State.Inv.attentionAll (h : s.Inv) {r : AttnReason} : (s.attentionAll p r).Inv :=
  h.forDrives fun _ _ h => h.ite h.setAttention

/-- An empty notice list is one as it can stand. -/
theorem emptied_listHolds (pr : PortRec) : ({ pr with notices := [] } : PortRec).listHolds := ⟨List.nodup_nil, by simp⟩

theorem State.Inv.silenced (h : s.Inv) : (s.onPort p PortRec.silenced).Inv := h.onPort

theorem State.Inv.portReset (h : s.Inv) : (s.portReset p).Inv := by
  have left : ((((s.entriesOf p).map (·.rid)).foldl State.abandon s).onPort p PortRec.silenced).Inv :=
    (h.foldl (fun _ _ h => h.abandon) _).silenced
  refine State.Inv.close (State.Inv.attentionAll (left.dropReservations.freeWindows.onPort fun pr ⟨_, _, counts, _⟩ => ?_))
  exact PortRec.holds.withLine ⟨Nat.mul_mod_left .., show 5 ≤ 15 by decide⟩ counts (emptied_listHolds pr)

theorem State.Inv.discardAll (h : s.Inv) : s.discardAll.Inv := h.retabled (List.nil_sublist _)

/-- A string reset leaves a drive the pack it held, or one sensed anew (R19, R43). -/
theorem DriveRec.packHolds.stringReset {dr : DriveRec} (h : dr.packHolds) {x : SpindleSense} (hx : x.valid = true) :
    (dr.stringReset x).packHolds := by
  simp only [DriveRec.stringReset]
  split
  · split
    · exact h.sensed hx
    · exact h
  · split <;> exact h
  · exact h
  · exact h
  · exact h
  · exact h
  · split <;> exact h

theorem State.Inv.stringReset (h : s.Inv) {cables : Vector SpindleSense 8} (hc : ∀ d : Drive, (cables[d]).valid = true) :
    (s.stringReset cables).Inv := by
  have drives : (Machine.forDrives (fun s d => s.onDrive d fun dr => (dr.stringReset cables[d]).cleared)
      (Machine.forDrives State.cutLeg s).discardAll).Inv :=
    (h.forDrives fun _ _ h => h.cutLeg).discardAll.forDrives fun _ d h => h.onDriveOf fun hd => hd.stringReset (hc d)
  refine State.Inv.forPorts (State.Inv.forPorts drives.withStartList fun s p h => h.onPort fun pr ⟨_, settings, counts, _⟩ => ?_)
    fun _ _ h => h.attentionAll
  exact PortRec.holds.withLine settings counts (emptied_listHolds pr.silenced)

theorem State.Inv.acceptStringReset (h : s.Inv) {cables : Vector SpindleSense 8} (hc : ∀ d : Drive, (cables[d]).valid = true) :
    (State.acceptStringReset p f cables s d o).Inv := (State.Inv.settle (h.stringReset hc)).queueReport.flush

/-! ### What keeps the invariant: immediate requests -/

theorem State.Inv.acceptReserve (h : s.Inv) : (Machine.acceptReserve p f s d o).Inv := State.Inv.answer h.onDrive

theorem State.Inv.acceptRelease (h : s.Inv) : (Machine.acceptRelease p f s d o).Inv := h.endReservation.answer.ite h.answer

theorem State.Inv.acceptSeize (h : s.Inv) : (Machine.acceptSeize p f s d o).Inv := by
  have owned : (s.setOwner d p).Inv := h.onDrive
  simp only [Machine.acceptSeize]
  split
  · exact h.answer.ite owned.post.onDrive.freeWanted.answer
  · exact owned.answer

theorem State.Inv.acceptReadFault (h : s.Inv) : (Machine.acceptReadFault p f s d o).Inv := by
  simp only [Machine.acceptReadFault]
  split
  · exact State.Inv.answer h.onDrive
  · exact h.answer

/-- A collection leaves some of the notices, in their order (R166). -/
theorem collect_left_sublist (sel : List NoticeKind) (n : Nat) (ns : List Notice) : (collect sel n ns).2.Sublist ns := by
  induction ns generalizing n with
  | nil => simp [collect]
  | cons x ns ih =>
    cases n with
    | zero => simp [collect]
    | succ n =>
      simp only [collect]
      split
      · exact (ih n).cons x
      · exact (ih (n + 1)).cons_cons x

theorem PortRec.listHolds.sublist {pr : PortRec} (h : pr.listHolds) {ns : List Notice} (hn : ns.Sublist pr.notices) :
    ({ pr with notices := ns } : PortRec).listHolds :=
  ⟨h.1.sublist (hn.map _), fun n hm => h.2 n (hn.subset hm)⟩

theorem State.Inv.acceptCollect (h : s.Inv) : (Machine.acceptCollect p f s d o).Inv := by
  simp only [Machine.acceptCollect]
  split
  · refine State.Inv.answer (h.onPortOf fun ⟨_, settings, counts, list⟩ => ?_)
    exact PortRec.holds.withLine settings counts (list.sublist (collect_left_sublist ..))
  · exact h

theorem State.Inv.acceptTest (h : s.Inv) : (Machine.acceptTest p f s d o).Inv := by
  simp only [Machine.acceptTest]
  split
  · exact h.post.answer
  · exact h

theorem State.Inv.setWindow (h : s.Inv) {w : Fin 4} {x : Option Window} : (s.setWindow w x).Inv := h.same

theorem State.Inv.acceptSetWindow (h : s.Inv) : (Machine.acceptSetWindow p f s d o).Inv := by
  simp only [Machine.acceptSetWindow]
  split
  · exact State.Inv.ite h.answer h.setWindow.answer
  · exact h

theorem State.Inv.acceptClearWindow (h : s.Inv) : (Machine.acceptClearWindow p f s d o).Inv := by
  simp only [Machine.acceptClearWindow]
  split
  · exact State.Inv.ite h.answer h.setWindow.answer
  · exact h

/-! #### Settings (R68) -/

theorem clamp_mem {lo hi : Nat} (h : lo ≤ hi) (v : Nat) : lo ≤ clamp lo hi v ∧ clamp lo hi v ≤ hi := by
  simp only [clamp]
  split
  · omega
  · split <;> omega

/-- A port's settings changed within their ranges, the line following them (R68, R165). -/
theorem State.Inv.putPortSettings (h : s.Inv) {g : PortSettings → PortSettings} (hg : ∀ c : PortSettings, c.inRange → (g c).inRange) :
    (s.onPort p fun pr => PortRec.withLine { pr with settings := g pr.settings }).Inv :=
  h.onPort fun _ ⟨_, settings, counts, list⟩ => PortRec.holds.withLine (hg _ settings) counts list

theorem State.Inv.putStringSettings (h : s.Inv) {g : StringSettings} (hg : s.settings.inRange → g.inRange) :
    ({ s with settings := g } : State).Inv := h.of_parts (fun _ => id) hg (fun _ => id) id

/-- A setting as taken lies in its range (R68). -/
theorem State.Inv.putTaken (h : s.Inv) (x : SettingItem) : (State.putSetting p s x.taken).Inv := by
  rcases x with ⟨y, v, u⟩
  cases y
  · exact h.putStringSettings fun ⟨_, suspect, misses, passes⟩ => ⟨clamp_mem (by omega) v, suspect, misses, passes⟩
  · exact h.putStringSettings id
  · exact h.putStringSettings fun ⟨retry, _, misses, passes⟩ => ⟨retry, clamp_mem (by omega) v, misses, passes⟩
  · exact h.putStringSettings fun ⟨retry, suspect, _, passes⟩ => ⟨retry, suspect, clamp_mem (by omega) v, passes⟩
  · exact h.putStringSettings fun ⟨retry, suspect, misses, _⟩ => ⟨retry, suspect, misses, clamp_mem (by omega) v⟩
  · exact h.putPortSettings (g := fun c => { c with unitBase := v / 8 * 8 }) fun c ⟨_, factor⟩ => ⟨Nat.mul_mod_left .., factor⟩
  · exact h.putPortSettings (g := fun c => { c with earlyEndPermitted := decide (v = 1) }) fun _ => id
  · exact h.putPortSettings (g := fun c => { c with noticeLineEnable := decide (v = 1) }) fun _ => id
  · exact h.putPortSettings (g := fun c => { c with waitFactor := min 15 v, waitUnit := u.getD c.waitUnit })
      fun c ⟨base, _⟩ => ⟨base, Nat.min_le_left ..⟩

theorem State.Inv.acceptSetSettings (h : s.Inv) : (Machine.acceptSetSettings p f s d o).Inv := by
  simp only [Machine.acceptSetSettings]
  split
  · next xs =>
    have put : ((xs.map SettingItem.taken).foldl (State.putSetting p) s).Inv := by
      rw [List.foldl_map]
      exact h.foldl (fun _ x h => h.putTaken x) xs
    exact State.Inv.ite put.queueReport.close put.answer
  · exact h

/-! #### CANCEL (R58 to R61) -/

theorem State.Inv.pendCancel (h : s.Inv) {r : Request} : (s.pendCancel r).Inv := State.Inv.ite h.putRequest.onDrive h.putRequest

theorem State.Inv.cancelTarget (h : s.Inv) {r : Request} : (s.cancelTarget r).Inv := by
  have ended : (s.settle (s.conclude r.rid Ending.cancelled)).Inv := h.conclude.settle
  have pends : (if r.cancelPending then s else s.pendCancel r).Inv := h.ite h.pendCancel
  simp only [State.cancelTarget]
  split
  · exact ended
  · exact ended
  · exact ended
  · exact ended
  · exact ended
  · exact pends
  · exact pends
  · exact pends
  · exact pends

theorem State.Inv.acceptCancel (h : s.Inv) : (Machine.acceptCancel p f s d o).Inv := by
  simp only [Machine.acceptCancel]
  split
  · split
    · exact h.answer
    · exact h.answer.ite h.cancelTarget.queueReport.flush
  · exact h

/-! ### What keeps the invariant: spindles, packs and the clock (R19, R22, R31 to R37, R41) -/

theorem State.Inv.comesToRest (h : s.Inv) : (s.comesToRest d).Inv := State.Inv.ite h.onDrive.endTogether.onDrive h.onDrive.endTogether

theorem State.Inv.cutClearing (h : s.Inv) : (s.cutClearing d).Inv :=
  State.Inv.ite (h.onDrive.foldl (fun _ _ h => h.conclude) _) h

theorem State.Inv.opened (h : s.Inv) : (s.opened d).Inv := by
  simp only [State.opened]
  split
  · exact h.stopDrive
  · exact h.stopDrive
  · exact h.stopDrive
  · exact h.cutClearing.onDrive
  · exact h
  · exact h
  · exact h

theorem State.Inv.packGone (h : s.Inv) : (s.packGone d).Inv := by
  refine h.onDriveOf fun _ q hq => ?_
  split at hq <;> cases hq

theorem State.Inv.faultIfRecording (h : s.Inv) : (s.faultIfRecording d).Inv := by
  simp only [State.faultIfRecording]
  split
  · exact h.faultDrive
  · exact h

theorem State.Inv.tick (h : s.Inv) : s.tick.Inv := by
  have counted : ({ s with gapTimer := tickTimer s.gapTimer, table := s.table.map Request.tick } : State).Inv :=
    State.Inv.same (h.rewritten (f := Request.tick) fun _ => rfl)
  exact counted.forDrives fun _ _ h => h.onDrive

end

end Sys2Proof.Machine

/-! ### Every step keeps the invariant -/

namespace Sys2Proof.Proofs
open Sys2Proof Sys2Proof.Machine Sys2Proof.Laws

set_option Elab.async false

section
variable {s t u : State} {c : Instr} {p : Port} {k : Kind} {f : RequestFrame}

/-- A command that goes through the power gate keeps the invariant where its effect does. -/
theorem inv_of_live (h : s.Inv) (ht : t.Inv) (he : s.live t = .next u) : u.Inv := by
  simp only [State.live] at he
  split at he <;> cases he
  · exact ht
  · exact h

theorem inv_of_immediate {acc : State → Drive → Operands → State} (h : s.Inv) (hacc : ∀ d o, (acc s d o).Inv)
    (he : s.live (s.arrival p k f acc) = .next u) : u.Inv := inv_of_live h (h.arrival fun d o _ => hacc d o) he

theorem inv_of_entry (h : s.Inv) (hk : k.tableEntry = true) (he : s.live (s.arrival p k f (State.acceptEntry k p f)) = .next u) :
    u.Inv := inv_of_live h (h.arrival fun _ _ hc => h.acceptEntry hk hc) he

/-- Cables that all carry well-formed levels do so one by one. -/
theorem valid_cables {cables : Vector SpindleSense 8} (h : cables.all SpindleSense.valid = true) (d : Drive) :
    (cables[d]).valid = true := Vector.all_eq_true.1 h d.val d.isLt

/-- A well-formed command keeps the invariant. -/
theorem inv_of_exec (h : s.Inv) (hc : c.wellFormed = true) (he : exec c s = .next t) : t.Inv := by
  cases c with
  | powerOn x => exact Host.Outcome.next.inj he ▸ State.Inv.settle (h.powerUp (valid_cables hc))
  | readBlocks p f | writeBlocks p f | writeAndCheck p f | checkBlocks p f | position p f | recalibrate p f | spareTrack p f
  | returnAlternate p f | formatTrack p f | writeLabel p f | startDrive p f | stopDrive p f | clearFault p f | synchronize p f =>
    exact inv_of_entry h rfl he
  | reserve p f => exact inv_of_immediate h (fun _ _ => h.acceptReserve) he
  | release p f => exact inv_of_immediate h (fun _ _ => h.acceptRelease) he
  | seize p f => exact inv_of_immediate h (fun _ _ => h.acceptSeize) he
  | readFaultRecord p f => exact inv_of_immediate h (fun _ _ => h.acceptReadFault) he
  | readStatus p f | readSpareMap p f | readWindows p f | readSettings p f | readIdentity p f =>
    exact inv_of_immediate h (fun _ _ => State.Inv.answer h) he
  | collectNotices p f => exact inv_of_immediate h (fun _ _ => h.acceptCollect) he
  | testNotice p f => exact inv_of_immediate h (fun _ _ => h.acceptTest) he
  | cancel p f => exact inv_of_immediate h (fun _ _ => h.acceptCancel) he
  | setWindow p f => exact inv_of_immediate h (fun _ _ => h.acceptSetWindow) he
  | clearWindow p f => exact inv_of_immediate h (fun _ _ => h.acceptClearWindow) he
  | setSettings p f => exact inv_of_immediate h (fun _ _ => h.acceptSetSettings) he
  | stringReset p f cables =>
    exact inv_of_immediate h (fun _ _ => h.acceptStringReset (valid_cables (Bool.and_eq_true_iff.1 hc).2)) he
  | badFrame p octets => exact inv_of_live h (h.badFrameAt.ite h) he
  | dataOut p tag index block => exact inv_of_live h (h.dataOutFrame.ite h) he
  | linkReset p => exact inv_of_live h (h.portReset.ite h) he
  | linkSignalLoss p => exact inv_of_live h (State.Inv.ite h.onPort.portReset h) he
  | linkSignalAppears p => exact inv_of_live h (h.ite (State.Inv.pump h.onPort)) he
  | holdLineChange p raised => exact inv_of_live h (State.Inv.pump h.onPort) he
  | dataInSent p =>
    refine inv_of_live h ?_ he
    split
    · exact State.Inv.close (State.Inv.deliver h.onPort)
    · exact h
  | dataWantedSent p =>
    refine inv_of_live h ?_ he
    split
    · exact State.Inv.pump (State.Inv.wantedSent h.onPort)
    · exact h
  | reportSent p =>
    refine inv_of_live h ?_ he
    split
    · exact State.Inv.pump h.onPort
    · exact h
  | dataWaitExpiry p tag half =>
    refine inv_of_live h ?_ he
    split
    · exact h.waitExpiry
    · exact h
  | readTimerExpiry p tag =>
    refine inv_of_live h ?_ he
    split
    · exact h.readExpiry
    · exact h
  | spindleSensed d x =>
    exact inv_of_live h (State.Inv.ite (h.onDriveOf fun hd => hd.sensed (Bool.and_eq_true_iff.1 hc).2) h) he
  | atSpeed d => exact inv_of_live h (State.Inv.ite (State.Inv.close (State.Inv.withGate (State.Inv.beginLoad h.onDrive))) h) he
  | spinTimeout d => exact inv_of_live h (h.faultDrive.close.ite h) he
  | startGapExpiry => exact inv_of_live h (State.Inv.ite (State.Inv.close h.same) h) he
  | atRest d => exact inv_of_live h (State.Inv.ite (State.Inv.ite (State.Inv.close (State.Inv.comesToRest h.onDrive)) h.onDrive) h) he
  | onCylinder d settled => exact inv_of_live h (h.onCylinderEvent.close.ite h) he
  | seekTimerExpiry d => exact inv_of_live h (h.seekExpiry.close.ite h) he
  | homeEvent d => exact inv_of_live h (h.homeEvent.close.ite h) he
  | recalibrateTimerExpiry d => exact inv_of_live h (h.recalibrateExpiry.close.ite h) he
  | sectorEvent d n read => exact inv_of_live h (h.sectorEvent.close.ite h) he
  | doorOpened d => exact inv_of_live h (h.ite (State.Inv.close (State.Inv.opened h.onDrive))) he
  | packRemoved d => exact inv_of_live h (h.ite (State.Inv.close (State.Inv.packGone (State.Inv.opened h.onDrive)))) he
  | doorClosed d => exact inv_of_live h (h.ite (State.Inv.close h.onDrive)) he
  | packSeated d q =>
    have seated {dr : DriveRec} : ({ dr with packSeated := true, pack := some q } : DriveRec).packHolds := fun x hx =>
      Option.some.inj hx ▸ (Bool.and_eq_true_iff.1 hc).1
    exact inv_of_live h (h.ite (State.Inv.close (h.onDriveOf fun _ => seated))) he
  | writeFaultRaised d => exact inv_of_live h (h.ite (State.Inv.close (State.Inv.faultIfRecording h.onDrive))) he
  | writeFaultDropped d => exact inv_of_live h (h.ite h.onDrive) he
  | writeProtectChange d b => exact inv_of_live h (h.ite h.onDrive) he
  | powerLoss => exact inv_of_live h h.powerDown he
  | kindInvalidRequest p code f => exact inv_of_live h (h.ite (h.overrun.ite (h.deny.ite h.deny))) he

/-- Settles O5: the command at the front of the queue keeps the invariant, as its effect is made of operations that do, and so
does the clock. -/
theorem invariantKeptByStep : Obligations.InvariantKeptByStep := by
  intro s t hw h he
  unfold step at he
  split at he
  · next c rest hp =>
    have front : ({ s with pending := rest } : State).Inv := h.same
    exact inv_of_exec front (hw c (by simp [hp])) he
  · exact inv_of_live h h.tick he

end

end Sys2Proof.Proofs

/-! ### Requests turned away at the drive's checks (R44, R47, R49, R65) -/

namespace Sys2Proof.Proofs
open Sys2Proof Sys2Proof.Machine Sys2Proof.Laws

section
variable {s : State} {p q : Port} {d : Drive} {k : Kind} {f : RequestFrame} {o : Operands} {c : Instr} {x : Denial}

/-- A request command is an arrival of its kind. -/
theorem exec_requestCommand (hc : requestCommand k p f = some c) (s : State) : ∃ acc, exec c s = s.live (s.arrival p k f acc) := by
  cases k
  case labelUpdate | stringReset => cases hc
  all_goals
    obtain rfl := Option.some.inj hc
    exact ⟨_, rfl⟩

/-- A command of a table-entry kind that passes the checks is carried out as `acceptEntry` gives. -/
theorem exec_entryCommand (hc : requestCommand k p f = some c) (hk : k.tableEntry = true) (s : State) :
    exec c s = s.live (s.arrival p k f (State.acceptEntry k p f)) := by
  cases k
  case reserve | release | seize | readStatus | readFaultRecord | readSpareMap | collectNotices | testNotice | cancel | setWindow
    | clearWindow | readWindows | setSettings | readSettings | readIdentity | stringReset => cases hk
  case labelUpdate => cases hc
  all_goals
    obtain rfl := Option.some.inj hc
    rfl

theorem carriesUnit_of_driveUsing (h : k.driveUsing = true) : k.carriesUnit = true := by simp [Kind.carriesUnit, h]

theorem driveUsing_of_windowed (h : k.windowed = true) : k.driveUsing = true := by
  revert h
  cases k <;> decide

/-- A refusal at the drive's checks closes the chain of a table-entry kind (R49). -/
theorem deny_eq (n : Nat) (h : x ≠ .tagInUse ∧ x ≠ .kindInvalid) : s.deny p n (some k) f x =
    ((s.denialEffect p f x).chainClosed p k).answer p (denialReport s p n (some k) f x) := by
  have closes : x.closesChain (some k) = k.tableEntry := by
    cases x
    case tagInUse => exact absurd rfl h.1
    case kindInvalid => exact absurd rfl h.2
    all_goals rfl
  simp only [State.deny, State.chainClosed, closes]

/-- A request that reaches the drive's checks and fails one is turned away: what the refusal changes, the chain, the report. -/
theorem exec_turnedAway (hc : requestCommand k p f = some c) (hu : k.driveUsing = true) (h : s.reaches k p f d o)
    (hx : s.driveChecks p d k f o = some x) (hn : x ≠ .tagInUse ∧ x ≠ .kindInvalid) :
    ∃ rep, exec c s = .next (((s.denialEffect p f x).chainClosed p k).answer p rep) ∧ rep.tag = f.tagNumber ∧ rep.cls = x.cls
      ∧ rep.detail = x.detail ∧ rep.qualifier = x.qualifier ∧ rep.body = x.body ∧ rep.residual = frameCount k f := by
  obtain ⟨acc, hexec⟩ := exec_requestCommand hc s
  refine ⟨denialReport s p k.code (some k) f x, ?_, rfl, rfl, rfl, rfl, rfl, rfl⟩
  rw [hexec, live_powered (reaches_powered h), arrival_reaches h (carriesUnit_of_driveUsing hu), hx, ← deny_eq _ hn]

/-! #### The checks in turn -/

theorem driveChecks_faulted (hu : k.driveUsing = true) (hk : k ≠ .clearFault) (hs : (s.drive d).state = .faulted) :
    s.driveChecks p d k f o = some .driveFaulted := by
  simp only [State.driveChecks]
  rw [if_pos ⟨hu, hk, hs⟩]

theorem driveChecks_notReady (hu : k.driveUsing = true) (hk : k ≠ .clearFault) (hk' : k ≠ .startDrive)
    (hs : (s.drive d).state = .stopped ∨ (s.drive d).state = .starting ∨ (s.drive d).state = .loading
      ∨ (s.drive d).state = .stopping) : s.driveChecks p d k f o = some (.notReady (s.drive d).state) := by
  have hf : (s.drive d).state ≠ .faulted := by rcases hs with h | h | h | h <;> simp [h]
  simp only [State.driveChecks]
  rw [if_neg fun h => hf h.2.2, if_pos ⟨hu, hk, hk', hs⟩]

/-- A drive that serves a kind turns it away at neither of checks 8 and 9 (R47). -/
theorem serves_passes (h : (s.drive d).serves k) :
    ¬(k.driveUsing = true ∧ k ≠ .clearFault ∧ (s.drive d).state = .faulted)
      ∧ ¬(k.driveUsing = true ∧ k ≠ .clearFault ∧ k ≠ .startDrive ∧ ((s.drive d).state = .stopped
        ∨ (s.drive d).state = .starting ∨ (s.drive d).state = .loading ∨ (s.drive d).state = .stopping)) := by
  rcases h with h | h | ⟨h, hf⟩
  · simp [h]
  · simp [h]
  · exact ⟨fun ⟨_, _, e⟩ => hf e, fun ⟨_, _, e, _⟩ => e h⟩

theorem driveChecks_reserved (hu : k.driveUsing = true) (hk : k ≠ .seize) (hs : (s.drive d).serves k)
    (ho : (s.drive d).unit.owner = some q) (hq : q ≠ p) : s.driveChecks p d k f o = some (.reserved d q) := by
  obtain ⟨h8, h9⟩ := serves_passes hs
  have hfilter : (s.drive d).unit.owner.filter (· != p) = some q := by simp [ho, hq]
  simp only [State.driveChecks]
  rw [if_neg h8, if_neg h9, if_pos ⟨hu, hk⟩, hfilter]

/-- A drive free or reserved for the port, and SEIZE of any, passes check 10 (R47). -/
theorem unreserved (ho : k = .seize ∨ (s.drive d).unit.owner = none ∨ (s.drive d).unit.owner = some p) :
    (if k.driveUsing = true ∧ k ≠ .seize then (s.drive d).unit.owner.filter (· != p) else none) = none := by
  rcases ho with ho | ho | ho <;> simp [ho]

theorem driveChecks_attention {r : AttnReason} (hu : k.driveUsing = true) (hs : (s.drive d).serves k)
    (ho : k = .seize ∨ (s.drive d).unit.owner = none ∨ (s.drive d).unit.owner = some p)
    (ha : ofPort (s.drive d).unit.attention p = some r) : s.driveChecks p d k f o = some (.attention d r) := by
  obtain ⟨h8, h9⟩ := serves_passes hs
  simp only [State.driveChecks]
  rw [if_neg h8, if_neg h9, unreserved ho, if_pos hu, ha]

theorem driveChecks_deferred {r : DeferredRec} (hu : k.driveUsing = true) (hs : (s.drive d).serves k)
    (ho : k = .seize ∨ (s.drive d).unit.owner = none ∨ (s.drive d).unit.owner = some p)
    (ha : ofPort (s.drive d).unit.attention p = none) (hd : ofPort (s.drive d).deferred p = some r) :
    s.driveChecks p d k f o = some (.deferred d r) := by
  obtain ⟨h8, h9⟩ := serves_passes hs
  simp only [State.driveChecks]
  rw [if_neg h8, if_neg h9, unreserved ho, if_pos hu, ha, if_pos hu, hd]

theorem driveChecks_windowStop {w : Fin 4} {win : Window} {n : Nat} {rest : List (Fin 4 × Window × Nat)}
    (hu : k.driveUsing = true) (hs : (s.drive d).state = .ready) (hc : (s.drive d).clear p)
    (hw : k.writeClass = true → (s.drive d).writeProtect = false)
    (hm : s.stoppingWindows p d k f.passWatch o = (w, win, n) :: rest) :
    s.driveChecks p d k f o = some (.windowStop w win.owner n) := by
  obtain ⟨h8, h9⟩ := serves_passes (.inl hs : (s.drive d).serves k)
  obtain ⟨ho, ha, hd⟩ := hc
  have h13 : ¬(k.writeClass = true ∧ (s.drive d).writeProtect = true) := by
    rintro ⟨hk, hp⟩
    rw [hw hk] at hp
    cases hp
  simp only [State.driveChecks]
  rw [if_neg h8, if_neg h9, unreserved (.inr ho), if_pos hu, ha, if_pos hu, hd, if_neg h13, hm]

/-! #### Windows that match (R173) -/

/-- The window of one number, with the track at which it matches. -/
def matchAt (s : State) (a : Action) (p : Port) (d : Drive) (k : Kind) (e : Option (Nat × Nat)) (i : Fin 4) :
    Option (Fin 4 × Window × Nat) :=
  s.windows[i].bind fun w => if w.action = a then (w.match p d k e).map fun n => (i, w, n) else none

theorem matching_eq_filterMap (s : State) (a : Action) (p : Port) (d : Drive) (k : Kind) (e : Option (Nat × Nat)) :
    s.matching a p d k e = ([0, 1, 2, 3] : List (Fin 4)).filterMap (matchAt s a p d k e) := by
  refine congrArg (fun g => List.filterMap g _) (funext fun i => ?_)
  simp only [matchAt]
  cases s.windows[i] with
  | none => rfl
  | some w => cases hm : w.match p d k e <;> simp [hm]

theorem matchAt_eq_some {a : Action} {e : Option (Nat × Nat)} {i j : Fin 4} {w : Window} {n : Nat} :
    matchAt s a p d k e i = some (j, w, n) ↔ i = j ∧ s.windows[i] = some w ∧ w.action = a ∧ w.match p d k e = some n := by
  simp only [matchAt, Option.bind_eq_some_iff]
  constructor
  · rintro ⟨v, hv, h⟩
    split at h
    · next ha =>
      obtain ⟨m, hm, e⟩ := Option.map_eq_some_iff.1 h
      simp only [Prod.mk.injEq] at e
      obtain ⟨rfl, rfl, rfl⟩ := e
      exact ⟨rfl, hv, ha, hm⟩
    · cases h
  · rintro ⟨rfl, hw, ha, hm⟩
    exact ⟨w, hw, by simp [ha, hm]⟩

theorem firstShared_eq_some {e : Option (Nat × Nat)} {base length n : Nat} : firstShared e base length = some n ↔
    ∃ lo hi, e = some (lo, hi) ∧ lo ≤ base + length - 1 ∧ base ≤ hi ∧ n = max lo base := by
  cases e with
  | none => simp [firstShared]
  | some e =>
    obtain ⟨lo, hi⟩ := e
    simp only [firstShared, Option.ite_none_right_eq_some, Option.some.injEq, Prod.mk.injEq]
    constructor
    · rintro ⟨⟨h1, h2⟩, rfl⟩
      exact ⟨lo, hi, ⟨rfl, rfl⟩, h1, h2, rfl⟩
    · rintro ⟨_, _, ⟨rfl, rfl⟩, h1, h2, rfl⟩
      exact ⟨⟨h1, h2⟩, rfl⟩

theorem match_eq_some {e : Option (Nat × Nat)} {w : Window} {n : Nat} : w.match p d k e = some n ↔
    w.drive = d ∧ k.windowed = true ∧ (w.access = .any ∨ k.writeClass = true) ∧ (w.scope = .allPorts ∨ p ≠ w.owner)
      ∧ ∃ lo hi, e = some (lo, hi) ∧ lo ≤ w.base + w.length - 1 ∧ w.base ≤ hi ∧ n = max lo w.base := by
  simp only [Window.match, Option.ite_none_right_eq_some, firstShared_eq_some]
  tauto

theorem mem_matching {a : Action} {e : Option (Nat × Nat)} {i : Fin 4} {w : Window} {n : Nat} :
    (i, w, n) ∈ s.matching a p d k e ↔ s.windows[i] = some w ∧ w.action = a ∧ w.match p d k e = some n := by
  rw [matching_eq_filterMap, List.mem_filterMap]
  constructor
  · rintro ⟨j, -, h⟩
    obtain ⟨rfl, hw⟩ := matchAt_eq_some.1 h
    exact hw
  · exact fun h => ⟨i, by fin_cases i <;> simp, matchAt_eq_some.2 ⟨rfl, h⟩⟩

/-- Windows stand in number order among those that match. -/
theorem matching_pairwise (s : State) (a : Action) (p : Port) (d : Drive) (k : Kind) (e : Option (Nat × Nat)) :
    (s.matching a p d k e).Pairwise (·.1 < ·.1) := by
  rw [matching_eq_filterMap, List.pairwise_filterMap]
  have numbers : ([0, 1, 2, 3] : List (Fin 4)).Pairwise (· < ·) := by decide
  refine numbers.imp fun {i j} hij x hx y hy => ?_
  rw [← (matchAt_eq_some.1 hx).1, ← (matchAt_eq_some.1 hy).1]
  exact hij

end

/-- Settles O18: checks 8 and 9 come before all others at the drive. -/
theorem notReadyRefused : Obligations.NotReadyRefused := by
  intro k p f c d o s hc hu hk h
  refine ⟨fun hs => ?_, fun hk' hs => ?_⟩
  · obtain ⟨rep, hexec, htag, hcls, hdetail, hqual, -, hres⟩ :=
      exec_turnedAway hc hu h (driveChecks_faulted hu hk hs) ⟨nofun, nofun⟩
    exact ⟨rep, hexec, htag, hcls, hdetail, hqual, hres⟩
  · obtain ⟨rep, hexec, htag, hcls, hdetail, hqual, -, hres⟩ :=
      exec_turnedAway hc hu h (driveChecks_notReady hu hk hk' hs) ⟨nofun, nofun⟩
    exact ⟨rep, hexec, htag, hcls, hdetail, hqual, hres⟩

/-- Settles O14: check 10, whose refusal puts the port into the wanted set. -/
theorem reservedRefused : Obligations.ReservedRefused := by
  intro k p q f c d o s hc hu hk h hs ho hq
  obtain ⟨rep, hexec, htag, hcls, hdetail, hqual, -, hres⟩ :=
    exec_turnedAway hc hu h (driveChecks_reserved hu hk hs ho hq) ⟨nofun, nofun⟩
  exact ⟨rep, hexec, htag, hcls, hdetail, hqual, hres⟩

/-- Settles O15: check 11, whose refusal clears the attention. -/
theorem attentionRefused : Obligations.AttentionRefused := by
  intro k p f c d o s r hc hu h hs ho ha
  obtain ⟨rep, hexec, htag, hcls, hdetail, hqual, -, hres⟩ :=
    exec_turnedAway hc hu h (driveChecks_attention hu hs ho ha) ⟨nofun, nofun⟩
  exact ⟨rep, hexec, htag, hcls, hdetail, hqual, hres⟩

/-- Settles O16: check 12, whose answer carries the record and clears it. -/
theorem deferredRefused : Obligations.DeferredRefused := by
  intro k p f c d o s x hc hu h hs ho ha hd
  obtain ⟨rep, hexec, htag, hcls, -, -, hbody, hres⟩ :=
    exec_turnedAway hc hu h (driveChecks_deferred hu hs ho ha hd) ⟨nofun, nofun⟩
  exact ⟨rep, hexec, htag, hcls, hbody, hres⟩

/-- Settles O17: check 14, and which windows match and stop a request. -/
theorem windowStopRefused : Obligations.WindowStopRefused := by
  refine ⟨fun k p f c d o s w x t rest hc hk h hs hclear hw hm => ?_, fun s p d k o a => ⟨matching_pairwise .., ?_, ?_, ?_⟩⟩
  · have hu := driveUsing_of_windowed hk
    obtain ⟨rep, hexec, htag, hcls, hdetail, hqual, -, hres⟩ :=
      exec_turnedAway hc hu h (driveChecks_windowStop hu hs hclear hw hm) ⟨nofun, nofun⟩
    exact ⟨rep, hexec, htag, hcls, hdetail, hqual, hres⟩
  · intro w x t
    rw [mem_matching, match_eq_some]
  · simp [State.stoppingWindows]
  · simp only [State.stoppingWindows, Bool.true_and, List.all_eq_true, beq_iff_eq]

/-- Settles O13: an unknown kind fails check 2, which closes the chain whatever the kind (R49). -/
theorem kindInvalidRefused : Obligations.KindInvalidRefused := by
  intro p code f s ⟨hp, hon, hroom, htag⟩
  have hexec : exec (.kindInvalidRequest p code f) s = s.live (s.deny p code.toNat none f .kindInvalid) := by
    simp [exec, execKindInvalidRequest, hon, hroom, htag]
  rw [hexec, live_powered hp]
  rfl

end Sys2Proof.Proofs

/-! ### Requests that take an entry, or end at arrival (R50, R54, R73, R148) -/

namespace Sys2Proof.Proofs
open Sys2Proof Sys2Proof.Machine Sys2Proof.Laws

section
variable {s : State} {p : Port} {d : Drive} {k : Kind} {f : RequestFrame} {o : Operands} {c : Instr} {r q : Request}

theorem requestCommand_of_arm (hc : armCommand k p f = some c) : requestCommand k p f = some c ∧ k.armUsing = true := by
  cases k
  case readBlocks | writeBlocks | writeAndCheck | checkBlocks | position | recalibrate | spareTrack | returnAlternate | formatTrack
    | writeLabel => exact ⟨hc, rfl⟩
  all_goals cases hc

/-- A request of a table-entry kind that passes every check is accepted. -/
theorem exec_accepted (hc : requestCommand k p f = some c) (hk : k.tableEntry = true) (hn : k ≠ .clearFault)
    (h : s.passes k p f d o) : exec c s = .next (State.acceptEntry k p f s d o) := by
  have hu : k.carriesUnit = true := by simp [Kind.carriesUnit, Kind.driveUsing, hk]
  have hreach := h.1
  rw [exec_entryCommand hc hk, live_powered (reaches_powered hreach), arrival_reaches hreach hu, driveChecks_passes h hn]

/-- The class of the port's last accepted data request for a drive, with its recovered count (R148). -/
def classNoted (k : Kind) (p : Port) (dr : DriveRec) : RecCount :=
  let cls : DataClass := if k = .writeBlocks ∨ k = .writeAndCheck then .write else .read
  let old := ofPort dr.recCounts p
  { count := if old.cls = none ∨ old.cls = some cls then old.count else 0, cls := some cls }

theorem dataClass_eq (k : Kind) : k.dataClass = if k = .writeBlocks ∨ k = .writeAndCheck then .write else .read := by
  cases k <;> rfl

theorem noteClass_other (h : r.kind.isData = false) : s.noteClass r = s := by simp [State.noteClass, h]

theorem noteClass_data (h : r.kind.isData = true) : s.noteClass r =
    s.onDrive r.drive fun dr => { dr with recCounts := setOfPort dr.recCounts r.port (classNoted r.kind r.port dr) } := by
  simp only [State.noteClass, h, if_true, State.acceptClass, dataClass_eq]
  refine onDrive_congr ?_
  cases hcls : (ofPort (s.drive r.drive).recCounts r.port).cls with
  | none => simp [classNoted, hcls]
  | some cls => simp [classNoted, hcls]

/-- Noting a class leaves every arm as it was. -/
theorem noteClass_armFree (s : State) (r : Request) (e : Drive) : ((s.noteClass r).drive e).armFree = (s.drive e).armFree := by
  by_cases h : r.kind.isData = true
  · rw [noteClass_data h]
    by_cases he : e = r.drive
    · rw [he, drive_onDrive_same]; rfl
    · rw [drive_onDrive_other _ he]
  · rw [noteClass_other (Bool.eq_false_of_not_eq_true h)]

/-- A request entered behind the noting of its class (R50, R54). -/
def entered (s : State) (p : Port) (f : RequestFrame) (r q : Request) : State :=
  { (s.noteClass r).onPort p fun pr =>
      { pr with marker := if f.chain then some { member := some r.rid, drive := r.drive, standing := .unended } else none }
    with table := s.table ++ [q], nextOrder := s.nextOrder + 1 }

theorem enter_eq_entered (hid : q.rid = r.rid) (hd : q.drive = r.drive) : (s.noteClass r).enter p f q = entered s p f r q := by
  obtain ⟨ht, hn⟩ := noteClass_frame s r
  rw [entered, ← ht, ← hn, ← hid, ← hd]
  rfl

/-- A request that joins the queue of a drive whose arm is not free is entered, and nothing more follows (R73, R76). -/
theorem enqueue_busy (h : (s.drive r.drive).armFree = false) (hid : q.rid = r.rid) (hd : q.drive = r.drive) :
    (s.noteClass r).enqueue p f q = (entered s p f r q).flush := by
  have busy : (((s.noteClass r).enter p f q).drive q.drive).armFree = false := by
    rw [← h, ← noteClass_armFree s r r.drive, hd]
    rfl
  rw [State.enqueue, testAfterJoin_busy busy, enter_eq_entered hid hd]

/-! #### The three standings of the member ahead (R54) -/

theorem acceptEntry_broken {m : ChainMark} (hm : (s.port p).marker = some m) (hs : m.standing = .endedOther) :
    State.acceptEntry k p f s d o =
      (s.mark p f d none .endedOther).answer p (arrivalReport s (s.newRequest p d k f o) .notRun .chainBroken) := by
  simp only [State.acceptEntry, State.memberStanding, hm, Option.map_some, hs]

theorem acceptEntry_waits {m : ChainMark} (hm : (s.port p).marker = some m) (hs : m.standing = .unended) :
    State.acceptEntry k p f s d o = ((s.noteClass (s.newRequest p d k f o)).enter p f
      { s.newRequest p d k f o with state := .waitingChain, pred := m.member }).flush := by
  simp only [State.acceptEntry, State.memberStanding, hm, Option.map_some, hs]
  rfl

/-- Outside a chain, or behind a member ended DONE. -/
theorem acceptEntry_opens (hm : ∀ m, (s.port p).marker = some m → m.standing = .endedDone) :
    State.acceptEntry k p f s d o =
      if k.isData = true ∧ (s.newRequest p d k f o).count = 0 then
        ((s.noteClass (s.newRequest p d k f o)).mark p f d none .endedDone).answer p
          (arrivalReport (s.noteClass (s.newRequest p d k f o)) (s.newRequest p d k f o) .done .noMotion)
      else if k.armUsing then
        (s.noteClass (s.newRequest p d k f o)).enqueue p f
          { s.newRequest p d k f o with chainPrecedence := (s.port p).marker.isSome }
      else (s.noteClass (s.newRequest p d k f o)).enterControl p f (s.newRequest p d k f o) := by
  cases hmark : (s.port p).marker with
  | none =>
    simp only [State.acceptEntry, State.memberStanding, hmark, Option.map_none]
    rfl
  | some m =>
    simp only [State.acceptEntry, State.memberStanding, hmark, Option.map_some, hm m hmark]
    rfl

end

/-- Settles O19: a request accepted outside a chain is entered behind the noting of its class, and its drive's busy arm makes no
decision. -/
theorem armRequestQueued : Obligations.ArmRequestQueued := by
  intro k p f c d o s hc h hm hbusy hcount r
  obtain ⟨hreq, harm⟩ := requestCommand_of_arm hc
  have htable : k.tableEntry = true := by simp [Kind.tableEntry, harm]
  have hclear : k ≠ .clearFault := by rintro rfl; cases harm
  refine ⟨⟨rfl, rfl, rfl, rfl, ?_⟩, fun hk => noteClass_other hk, fun hk => noteClass_data hk⟩
  have hopen : ∀ m, (s.port p).marker = some m → m.standing = .endedDone := fun m e => by rw [hm] at e; cases e
  have hz : ¬(k.isData = true ∧ (s.newRequest p d k f o).count = 0) := fun ⟨hk, e⟩ => hcount hk e
  rw [exec_accepted hreq htable hclear h, acceptEntry_opens hopen, if_neg hz, if_pos harm, hm]
  exact congrArg _ (enqueue_busy (r := r) hbusy rfl rfl)

/-- Settles O20: a data request of count 0 is reported at once, behind the noting of its class. -/
theorem countZeroEndsAtArrival : Obligations.CountZeroEndsAtArrival := by
  intro k p f c d o s hc hk h hm hz
  obtain ⟨hreq, harm⟩ := requestCommand_of_arm hc
  have htable : k.tableEntry = true := by simp [Kind.tableEntry, harm]
  have hclear : k ≠ .clearFault := by rintro rfl; cases harm
  refine ⟨arrivalReport (s.noteClass (s.newRequest p d k f o)) (s.newRequest p d k f o) .done .noMotion, ?_, rfl, rfl, rfl, hz⟩
  rw [exec_accepted hreq htable hclear h, acceptEntry_opens hm, if_pos ⟨hk, hz⟩]
  rfl

/-- Settles O21: the standing of the member ahead says whether a member waits, is queued, or ends NOT_RUN. -/
theorem chainMemberTaken : Obligations.ChainMemberTaken := by
  intro k p f c d o s m hc htable hclear h hm r entered
  rw [exec_accepted hc htable hclear h]
  refine ⟨fun hs => ?_, fun hs harm hcount hbusy => ?_, fun hs => ?_⟩
  · rw [acceptEntry_waits hm hs]
    exact congrArg (fun u : State => Host.Outcome.next u.flush) (enter_eq_entered (r := r) rfl rfl)
  · have hopen : ∀ x, (s.port p).marker = some x → x.standing = .endedDone := fun x e => by
      obtain rfl := Option.some.inj (hm.symm.trans e)
      exact hs
    rw [acceptEntry_opens hopen, if_neg fun ⟨hk, e⟩ => hcount hk e, if_pos harm, hm]
    exact congrArg _ (enqueue_busy (r := r) hbusy rfl rfl)
  · rw [acceptEntry_broken hm hs]
    exact ⟨_, rfl, rfl, rfl, rfl, rfl⟩

end Sys2Proof.Proofs

/-! ### SET SETTINGS (R68, R69) -/

namespace Sys2Proof.Proofs
open Sys2Proof Sys2Proof.Machine Sys2Proof.Laws

/-- The item of a settings list that names a setting. -/
def itemFor (xs : List SettingItem) (y : Setting) : Option SettingItem := xs.find? fun x => decide (x.setting = y)

/-- The value a settings list leaves a setting, from the one it had; and whether it leaves a switch on. -/
def valueOf (xs : List SettingItem) (y : Setting) (old : Nat) : Nat := ((itemFor xs y).map (·.value)).getD old
def switchOf (xs : List SettingItem) (y : Setting) (old : Bool) : Bool :=
  ((itemFor xs y).map fun x => decide (x.value = 1)).getD old

/-- The string settings and a port's after a settings list, from what they were. -/
def stringTaken (xs : List SettingItem) (g : StringSettings) : StringSettings :=
  { retryLimit := valueOf xs .retryLimit g.retryLimit, autoSpare := switchOf xs .autoSpare g.autoSpare
    suspectThreshold := valueOf xs .suspectThreshold g.suspectThreshold
    preferenceMisses := valueOf xs .preferenceMisses g.preferenceMisses
    overduePasses := valueOf xs .overduePasses g.overduePasses }
def portTaken (xs : List SettingItem) (c : PortSettings) : PortSettings :=
  { unitBase := valueOf xs .unitBase c.unitBase
    earlyEndPermitted := switchOf xs .earlyEndPermitted c.earlyEndPermitted
    noticeLineEnable := switchOf xs .noticeLineEnable c.noticeLineEnable
    waitFactor := valueOf xs .dataWait c.waitFactor
    waitUnit := ((itemFor xs .dataWait).bind (·.unit)).getD c.waitUnit }

/-- One setting's value, clamped or rounded (R68). -/
def takenValue (x : SettingItem) : Nat :=
  match x.setting with
  | .retryLimit | .suspectThreshold => max 1 (min 15 x.value)
  | .preferenceMisses => max 1 (min 7 x.value)
  | .overduePasses => max 4 (min 15 x.value)
  | .unitBase => x.value - x.value % 8
  | .dataWait => min 15 x.value
  | .autoSpare | .earlyEndPermitted | .noticeLineEnable => x.value

section
variable {s : State} {p : Port} {x : SettingItem} {xs : List SettingItem} {y : Setting} {f : RequestFrame}

theorem clamp_eq {lo hi : Nat} (h : lo ≤ hi) (v : Nat) : clamp lo hi v = max lo (min hi v) := by
  simp only [clamp]
  split
  · omega
  · split <;> omega

theorem taken_eq (x : SettingItem) : x.taken = { x with value := takenValue x } := by
  rcases x with ⟨y, v, u⟩
  cases y <;> simp [SettingItem.taken, takenValue, clamp_eq, Nat.div_mul_self_eq_mod_sub_self]

theorem itemFor_cons (x : SettingItem) (xs : List SettingItem) (y : Setting) :
    itemFor (x :: xs) y = if x.setting = y then some x else itemFor xs y := by
  by_cases h : x.setting = y <;> simp [itemFor, h]

theorem itemFor_none (h : y ∉ xs.map (·.setting)) : itemFor xs y = none := by
  refine List.find?_eq_none.2 fun x hx hy => h ?_
  rw [← of_decide_eq_true hy]
  exact List.mem_map_of_mem hx

theorem port_withSettings (s : State) (g : StringSettings) (p : Port) :
    ({ s with settings := g } : State).port p = s.port p := rfl

/-- One setting put and then others of other names: as the whole list leaves it. -/
theorem put_then_taken (s : State) (p : Port) (h : x.setting ∉ xs.map (·.setting)) :
    stringTaken xs (State.putSetting p s x).settings = stringTaken (x :: xs) s.settings
      ∧ portTaken xs ((State.putSetting p s x).port p).settings = portTaken (x :: xs) (s.port p).settings := by
  have hnone := itemFor_none h
  rcases x with ⟨y, v, u⟩
  cases y <;>
    simp [State.putSetting, stringTaken, portTaken, valueOf, switchOf, itemFor_cons, hnone, PortRec.withLine,
      port_withSettings]

/-- A list that names no setting twice leaves each as its item says (R69). -/
theorem foldl_putSetting (hn : (xs.map (·.setting)).Nodup) (s : State) (p : Port) :
    (xs.foldl (State.putSetting p) s).settings = stringTaken xs s.settings
      ∧ ((xs.foldl (State.putSetting p) s).port p).settings = portTaken xs (s.port p).settings := by
  induction xs generalizing s with
  | nil => exact ⟨rfl, rfl⟩
  | cons x xs ih =>
    obtain ⟨hx, hxs⟩ := List.nodup_cons.1 hn
    obtain ⟨hstring, hport⟩ := put_then_taken s p hx
    rw [← hstring, ← hport]
    exact ih hxs _

theorem nodup_of_noRepeat {α : Type} [DecidableEq α] {l : List α} (h : noRepeat l = true) : l.Nodup := by
  induction l with
  | nil => exact List.nodup_nil
  | cons a l ih =>
    simp only [noRepeat, Bool.and_eq_true, Bool.not_eq_true', List.contains_eq_mem, decide_eq_false_iff_not] at h
    exact List.nodup_cons.2 ⟨h.1, ih h.2⟩

/-- A settings list as accepted names no setting twice (R69). -/
theorem nodup_settings (h : checkFields .setSettings f = .ok (.settings xs)) : (xs.map (·.setting)).Nodup := by
  have hops := operands?_of_checkFields h
  simp only [operands?] at hops
  split at hops
  · split at hops
    · split at hops
      · next hno =>
        obtain rfl := Operands.settings.inj (Option.some.inj hops)
        exact nodup_of_noRepeat hno
      · cases hops
    · cases hops
  · cases hops

/-- A settings list put: the string settings and the port's take its values, and the notice line follows (R68, R165). -/
theorem foldl_putSetting_spec (hn : (xs.map (·.setting)).Nodup) (s : State) (p : Port) :
    let t := xs.foldl (State.putSetting p) s
    t = { s with ports := t.ports, settings := stringTaken xs s.settings }
      ∧ (∃ l, t.port p = { s.port p with settings := portTaken xs (s.port p).settings, noticeLine := l }
        ∧ ((s.port p).lineHolds →
          l = (!(s.port p).notices.isEmpty && (portTaken xs (s.port p).settings).noticeLineEnable)))
      ∧ ∀ q, q ≠ p → t.port q = s.port q := by
  obtain ⟨g, l, c, hframe, hline⟩ := fold_frame (p := p) xs s
  obtain ⟨hstring, hport⟩ := foldl_putSetting hn s p
  generalize xs.foldl (State.putSetting p) s = t at *
  have hp : t.port p = { s.port p with settings := c, noticeLine := l } := by
    rw [hframe, port_withSettings, port_onPort_same]
  have hc : c = portTaken xs (s.port p).settings := by rw [← hport, hp]
  refine ⟨?_, ⟨l, hc ▸ hp, hc ▸ hline⟩, fun q hq => by rw [hframe, port_withSettings, port_onPort_other _ hq]⟩
  rw [← hstring, hframe]
  rfl

theorem taken_names (xs : List SettingItem) : (xs.map SettingItem.taken).map (·.setting) = xs.map (·.setting) := by
  rw [List.map_map]
  exact List.map_congr_left fun x _ => by rw [Function.comp, taken_eq]

theorem any_taken (xs : List SettingItem) (y : Setting) :
    (xs.map SettingItem.taken).any (·.setting = y) = xs.any (·.setting = y) := by
  have := congrArg (fun l : List Setting => l.any (· = y)) (taken_names xs)
  simpa only [List.any_map, Function.comp_def] using this

/-- SET SETTINGS puts its list; a new overdue limit may let requests be chosen (R68, R77). -/
theorem exec_setSettings (h : s.admits .setSettings p f (.settings xs)) :
    let ys := xs.map SettingItem.taken
    let t := ys.foldl (State.putSetting p) s
    let rep := doneReport .setSettings f (if ys.isEmpty then .none else .settings ys)
    exec (.setSettings p f) s = .next (if xs.any (·.setting = .overduePasses) then s.close (t.queueReport p rep)
      else t.answer p rep) := by
  show s.live (s.arrival p .setSettings f (acceptSetSettings p f)) = _
  rw [live_powered (admits_powered h), arrival_admits h rfl rfl, acceptSetSettings, any_taken]

end

/-- Settles O37: the list's items are put one after another; none names a setting of another. -/
theorem settingsTaken : Obligations.SettingsTaken := by
  intro p f xs s h taken named value switch rep
  have htaken : xs.map SettingItem.taken = taken := List.map_congr_left fun x _ => taken_eq x
  have hexec := exec_setSettings h
  have hquiet : s.quiet → ((taken.foldl (State.putSetting p) s).queueReport p rep).quiet := by
    obtain ⟨g, l, c, hframe, -⟩ := fold_frame (p := p) taken s
    rw [hframe]
    exact id
  obtain ⟨hframe, hport, hothers⟩ := foldl_putSetting_spec (xs := taken)
    (htaken ▸ (taken_names xs).symm ▸ nodup_settings h.2.1) s p
  rw [htaken] at hexec
  refine ⟨taken.foldl (State.putSetting p) s, fun hno => ?_, fun hyes hq => ?_, hframe, hport, hothers⟩
  · rw [hexec, hno]
    rfl
  · rw [hexec, if_pos hyes, close_quiet (hquiet hq)]

end Sys2Proof.Proofs

/-! ### CANCEL (R58 to R61) -/

namespace Sys2Proof.Proofs
open Sys2Proof Sys2Proof.Machine Sys2Proof.Laws

section
variable {s : State} {p : Port} {f : RequestFrame} {n : Nat} {r : Request}

theorem exec_cancel (h : s.admits .cancel p f (.target n)) :
    exec (.cancel p f) s = .next (acceptCancel p f s 0 (.target n)) := by
  show s.live (s.arrival p .cancel f (acceptCancel p f)) = _
  rw [live_powered (admits_powered h), arrival_admits h rfl rfl]

/-- A CANCEL whose target can be cancelled acts on it, and then its own report is queued (R58). -/
theorem exec_cancel_target (h : s.admits .cancel p f (.target n)) (hr : s.tagged? p n = some r) (he : r.earlyEnded = false) :
    exec (.cancel p f) s = .next (State.flush ((s.cancelTarget r).queueReport p (doneReport .cancel f .none))) := by
  rw [exec_cancel h]
  simp [acceptCancel, hr, he]

/-- A target at work, or moving without the arm, takes the mark alone (R60, R61). -/
theorem cancelTarget_marked (hk : r.kind ≠ .labelUpdate) (hp : r.cancelPending = false)
    (hst : r.state = .transferring ∨ r.state = .sparing) :
    s.cancelTarget r = s.withRequest { r with cancelPending := true } := by
  rcases hst with hst | hst <;> simp [State.cancelTarget, hst, hp, State.pendCancel, putRequest_table, hk]

/-- A target in movement takes the mark and leaves the arm, which runs on (R60). -/
theorem cancelTarget_moving (hk : r.kind ≠ .labelUpdate) (hp : r.cancelPending = false)
    (hst : r.state = .seeking ∨ r.state = .recalibrating) (ho : (s.drive r.drive).owner = some r.rid)
    (harm : (s.drive r.drive).arm ≠ .onCylinder) :
    s.cancelTarget r = (s.withRequest { r with cancelPending := true }).onDrive r.drive fun dr =>
      { dr with owner := none, retryMark := false } := by
  have howner : ((s.withRequest { r with cancelPending := true }).drive r.drive).owner = some r.rid := ho
  have hlose : (s.drive r.drive).loseOwner = { s.drive r.drive with owner := none, retryMark := false } := by
    unfold DriveRec.loseOwner
    cases ha : (s.drive r.drive).arm <;> simp_all
  have hpend : s.cancelTarget r = s.pendCancel r := by
    rcases hst with hst | hst <;> simp [State.cancelTarget, hst, hp]
  have hput := putRequest_table (s := s) (r := { r with cancelPending := true }) hk
  rw [hpend, State.pendCancel, hput]
  exact (if_pos ⟨hst, howner⟩).trans (onDrive_congr hlose)

/-- A target that has the mark stays as it was. -/
theorem cancelTarget_again (hp : r.cancelPending = true)
    (hst : r.state = .seeking ∨ r.state = .recalibrating ∨ r.state = .transferring ∨ r.state = .sparing) :
    s.cancelTarget r = s := by
  rcases hst with hst | hst | hst | hst <;> simp [State.cancelTarget, hst, hp]

/-- A waiting target ends at once, and what follows happens (R59). -/
theorem cancelTarget_waiting (hst : r.state = .waitingChain ∨ r.state = .queued ∨ r.state = .positioned
      ∨ r.state = .sparingWait ∨ r.state = .controlWait) :
    s.cancelTarget r = s.settle (s.conclude r.rid Ending.cancelled) := by
  rcases hst with hst | hst | hst | hst | hst <;> simp [State.cancelTarget, hst]

/-- An ending and a report behind it, as one change of the port. -/
theorem ended_then_reported (hp : r.port = p) (own : Report) :
    (endedAlone s r Ending.cancelled).queueReport p own =
      { s.onPort p fun pr =>
          { pr with
            reports := pr.reports ++ [endingReport s r Ending.cancelled .none, own]
            marker := pr.marker.map fun m => if m.member = some r.rid then { m with standing := .endedOther } else m } with
        table := s.table.filter (·.rid != r.rid) } := by
  subst hp
  calc (endedAlone s r Ending.cancelled).queueReport r.port own
      = { (s.onPort r.port fun pr => told pr s [r] fun _ => Ending.cancelled).onPort r.port fun pr =>
            { pr with reports := pr.reports ++ [own] } with table := s.table.filter (·.rid != r.rid) } := rfl
    _ = _ := by
      rw [onPort_onPort, onPort_congr (s := s) (p := r.port)]
      simp [told]

/-- The ending of a plain request that is ABANDONED, part by part. -/
theorem conclude_cancelled (h : s.plain r) :
    let t := s.conclude r.rid Ending.cancelled
    t.table = s.table.filter (·.rid != r.rid) ∧ r.rid ∉ t.buffer.waiters
      ∧ (∀ i : Fin 8, t.segments[i] = if s.segments[i] = some r.rid then none else s.segments[i])
      ∧ (∀ q : Port, t.port q =
          if q = r.port then
            { s.port q with
              reports := (s.port q).reports ++ [endingReport s r Ending.cancelled .none]
              marker := (s.port q).marker.map fun m =>
                if m.member = some r.rid then { m with standing := .endedOther } else m }
          else s.port q)
      ∧ (t.drive r.drive).owner = (s.drive r.drive).owner.filter (· != r.rid) := by
  intro t
  have ht : t = _ := conclude_plain_eq h Ending.cancelled
  obtain ⟨v, hgiven, hseg⟩ := givenBack_spec s r
  refine ⟨by rw [ht, hgiven], by rw [ht, hgiven]; simp, fun i => by rw [ht, hgiven]; exact hseg i, fun q => ?_, ?_⟩
  · have hport : t.port q = (toldEnding s r Ending.cancelled).port q := by
      rw [ht]
      generalize givenBack s r = g
      rfl
    rw [hport, toldEnding_port_unmet h.1 (plain_unmet h)]
    rfl
  · have hdrive : t.drive r.drive = lost r.rid (s.drive r.drive) := by rw [conclude_plain_drive h, if_pos rfl]
    rw [hdrive, lost]
    cases ho : (s.drive r.drive).owner with
    | none => simp [ho]
    | some m => by_cases hm : m = r.rid <;> simp [ho, hm, DriveRec.loseOwner, Option.filter]

end

/-- Settles O33, by the state the target is in. -/
theorem cancelActs : Obligations.CancelActs := by
  intro p f n s h
  refine ⟨fun hno => ?_, fun r hr => ⟨fun he => ?_, fun he hp hk => ⟨fun hst => ?_, fun hst ho harm => ?_,
    fun hst hplain hun harm hee hq => ?_⟩, fun he hp hst => ?_, fun he hst => ⟨?_, settle_quiet, conclude_cancelled⟩⟩⟩
  · rw [exec_cancel h]
    simp [acceptCancel, hno]
  · rw [exec_cancel h]
    simp [acceptCancel, hr, he]
  · rw [exec_cancel_target h hr he, cancelTarget_marked hk hp hst]
  · rw [exec_cancel_target h hr he, cancelTarget_moving hk hp hst ho harm]
  · have hwait : r.state = .waitingChain ∨ r.state = .queued ∨ r.state = .positioned ∨ r.state = .sparingWait
        ∨ r.state = .controlWait := by
      rcases hst with hst | hst | hst <;> simp [hst]
    have hquiet := quiet_conclude (e := Ending.cancelled) hq hplain hee (hun.2.1 r.drive).1
    have hfree : r.earlyEnded = false ∧ r.detached = false ∧ r.failure = none :=
      ⟨hplain.2.1, hplain.2.2.1, hplain.2.2.2.1⟩
    have halone := conclude_alone (e := Ending.cancelled) ⟨hplain.1, hun, hfree, harm⟩ (by decide)
    have hport : r.port = p := (entry_tagged hr).2.1
    rw [exec_cancel_target h hr he, cancelTarget_waiting hwait, settle_quiet hquiet, halone, ended_then_reported hport]
  · rw [exec_cancel_target h hr he, cancelTarget_again hp hst]
  · rw [exec_cancel_target h hr he, cancelTarget_waiting hst]
    rfl

end Sys2Proof.Proofs

/-! ### Data-out frames (R104, R105) and the early report (R64) -/

namespace Sys2Proof.Proofs
open Sys2Proof Sys2Proof.Machine Sys2Proof.Laws

section
variable {s : State} {r : Request} {b : Block}

theorem takesData_stored (h : r.takesData = true) : r.kind ≠ .labelUpdate := by
  intro hk
  simp [Request.takesData, hk] at h

/-- A block placed changes the halves and the count of blocks arrived, and nothing else of the request. -/
theorem place_halves (r : Request) (b : Block) :
    ∃ h0 h1, r.place b = { r with half0 := h0, half1 := h1, arrived := r.arrived + 1 } := by
  unfold Request.place Request.setHalf
  dsimp only
  split
  · exact ⟨r.half0, _, rfl⟩
  · exact ⟨_, r.half1, rfl⟩

/-- A plain request stays plain as its halves fill. -/
theorem plain_placed (h : s.plain r) (b : Block) : (s.withRequest (r.place b)).plain (r.place b) := by
  obtain ⟨hentry, he, hd, hf, hpred, hmet⟩ := h
  obtain ⟨h0, h1, hplace⟩ := place_halves r b
  rw [hplace]
  exact ⟨entry_withRequest hentry rfl hentry.2.2, he, hd, hf, table_pred hpred hentry.1 rfl, hmet⟩

/-- A port told of an early end: the report, and the standing its marker takes (R64, R55). -/
def toldEarly (s : State) (r : Request) (pr : PortRec) : PortRec :=
  { pr with
    reports := pr.reports ++ [endingReport s r (Ending.make .done .earlyEnd) .none]
    marker := pr.marker.map fun m => if m.member = some r.rid then { m with standing := .endedDone } else m }

/-- The report of an early end clears the window mark, and otherwise is the port's alone (R175). -/
theorem reportDone_early (h : s.plain r) (harm : r.reachedArm = true) :
    s.reportDone r (Ending.make .done .earlyEnd) .none
      = (s.onPort r.port (toldEarly s r)).withRequest { r with windowMatch := none } := by
  obtain ⟨hentry, -, -, -, -, hmet⟩ := h
  have hafter := reportAfter_plain (s := s.reportEnding r (Ending.make .done .earlyEnd) .none) hmet
    (request?_entry hentry) hentry.2.2
  rw [State.reportDone, hafter, if_pos harm]
  have htold := onPort_onPort (s := s) (p := r.port)
    (fun pr => { pr with reports := pr.reports ++ [endingReport s r (Ending.make .done .earlyEnd) .none] })
    (fun pr => { pr with
      marker := pr.marker.map fun m => if m.member = some r.rid then { m with standing := .endedDone } else m })
  exact congrArg (State.withRequest · { r with windowMatch := none }) htold

/-- A plain write's early report (R64): its report and its marker's standing, the request marked as ended early. -/
theorem earlyReport_plain (h : s.plain r) (harm : r.reachedArm = true) :
    s.earlyReport r.rid
      = (s.withRequest { r with earlyEnded := true, windowMatch := none }).onPort r.port (toldEarly s r) := by
  have hentry := h.1
  have hfound : ((s.onPort r.port (toldEarly s r)).withRequest { r with windowMatch := none }).request? r.rid
      = some { r with windowMatch := none } := request?_withRequest ⟨r, hentry.1, rfl⟩ rfl
  have hput := putRequest_table (s := (s.onPort r.port (toldEarly s r)).withRequest { r with windowMatch := none })
    (r := { r with earlyEnded := true, windowMatch := none }) hentry.2.2
  simp only [State.earlyReport, request?_entry hentry]
  rw [reportDone_early h harm, onRequest_some hfound, hput, withRequest_withRequest (by rfl), State.releaseBehind]
  obtain ⟨-, -, -, -, hpred, -⟩ := h
  refine releaseChain_none (fun x hx => ?_) _
  exact table_pred (r := { r with earlyEnded := true, windowMatch := none }) hpred hentry.1 rfl x hx

/-- The report behind the last block of an effective early end, nothing following it. -/
theorem close_earlyReport_placed (h : s.plain r) (harm : r.reachedArm = true) (hq : s.quiet) (hst : r.state ≠ .queued) :
    s.close ((s.withRequest (r.place b)).earlyReport (r.place b).rid) = State.flush
      ((s.withRequest { r.place b with earlyEnded := true, windowMatch := none }).onPort r.port (toldEarly s r)) := by
  have hplain := plain_placed h b
  obtain ⟨h0, h1, heq⟩ := place_halves r b
  rw [heq] at hplain ⊢
  rw [earlyReport_plain hplain harm, withRequest_withRequest (by rfl)]
  have hquiet : (s.withRequest { r with
      half0 := h0, half1 := h1, arrived := r.arrived + 1, earlyEnded := true, windowMatch := none }).quiet :=
    quiet_withRequest hq h.1 rfl rfl rfl rfl rfl hst hst id
  exact close_quiet (t := State.onPort _ r.port (toldEarly s r)) hquiet

end

/-- Settles O42: the block is placed, and the last of an effective early end is followed by the early report. -/
theorem dataOutPlaced : Obligations.DataOutPlaced := by
  intro p tag index b r s hpow hon htag htakes he hheld hindex hless one h hwanted hasked hround full q
  have hplace : r.place b = q := by
    simp only [Request.place, roundSize, List.length_append, List.length_singleton]
    rw [show (r.half one).state = .wanted from hwanted]
  have haccepts : r.accepts index.toNat = true := by
    simp only [Request.accepts, hindex, hless, Bool.and_eq_true, decide_eq_true_eq, true_and]
    exact ⟨⟨hwanted, hasked⟩, hround⟩
  have hexec : exec (.dataOut p tag index b) s = .next (s.dataOutFor r index.toNat b) := by
    show s.live (if (s.port p).online then s.dataOutFrame p tag index.toNat b else s) = _
    rw [live_powered hpow, if_pos hon]
    simp [State.dataOutFrame, htag, htakes, he, hheld]
  have hput : s.putRequest (r.place b) = s.withRequest (r.place b) := by
    obtain ⟨h0, h1, heq⟩ := place_halves r b
    rw [heq]
    exact putRequest_table (takesData_stored htakes)
  refine ⟨fun hno => ?_, fun hlast hee hp hplain hq harm hst => ?_⟩
  · rw [hexec, State.dataOutFor, if_pos haccepts]
    dsimp only
    rw [hput, if_neg ?_, hplace]
    obtain ⟨h0, h1, heq⟩ := place_halves r b
    rw [heq]
    rintro ⟨harrived, hearly, hpending⟩
    rcases hno with hno | hno | hno
    · exact hno harrived
    · exact absurd hearly (by simp [hno])
    · exact absurd hpending (by simp [hno])
  · rw [hexec, State.dataOutFor, if_pos haccepts]
    dsimp only
    rw [hput, if_pos ?_]
    · rw [close_earlyReport_placed hplain harm hq hst, hplace, (entry_tagged htag).2.1]
      rfl
    · obtain ⟨h0, h1, heq⟩ := place_halves r b
      rw [heq]
      exact ⟨hlast, hee, hp⟩

end Sys2Proof.Proofs

/-! ### What a port reset does to the port, the drives' reservations and the windows (R162, R176, R184) -/

namespace Sys2Proof.Proofs
open Sys2Proof Sys2Proof.Machine Sys2Proof.Laws

section
variable {s : State} {p q : Port} {d : Drive} {ds : List Drive} {pr : PortRec}

/-! #### Reservations ended (R157, R162) -/

/-- A drive's record with a port's reservation ended: no owner, nobody waiting for it. -/
def reservationEnded (p : Port) (dr : DriveRec) : DriveRec :=
  if dr.unit.owner = some p then
    { dr with unit := { dr.unit with owner := none, wanted := Vector.replicate 4 false } }
  else dr

/-- The drives of a list whose reservation ends and that a port waits for. -/
def freedFor (s : State) (p q : Port) (ds : List Drive) : List Drive :=
  ds.filter fun d => decide ((s.drive d).unit.owner = some p) && ofPort (s.drive d).unit.wanted q

/-- A port told that drives are free, in their order. -/
def toldFree (ds : List Drive) (pr : PortRec) : PortRec := ds.foldl (fun pr d => pr.posted .driveFree (.drive d) .none) pr

/-- A port's reservation of one drive ended, where it has it. -/
def dropOne (p : Port) (s : State) (d : Drive) : State :=
  if (s.drive d).unit.owner = some p then s.endReservation d else s

theorem toldFree_eq : toldFree ds pr =
    if ds.isEmpty then pr
    else { pr with
      notices := ds.foldl (fun ns d => postInto ns .driveFree (.drive d) .none) pr.notices
      noticeLine := pr.settings.noticeLineEnable } := by
  induction ds generalizing pr with
  | nil => rfl
  | cons a ds ih =>
    show toldFree ds _ = _
    rw [ih]
    cases ds <;> rfl

/-- Notices change a port's list and line alone. -/
theorem toldFree_frame : ∃ ns l, toldFree ds pr = { pr with notices := ns, noticeLine := l } := by
  rw [toldFree_eq]
  split
  · exact ⟨pr.notices, pr.noticeLine, rfl⟩
  · exact ⟨_, _, rfl⟩

theorem drive_withPorts (s : State) (ps : Vector PortRec 4) (d : Drive) :
    ({ s with ports := ps } : State).drive d = s.drive d := rfl

theorem dropOne_spec (s : State) (p : Port) (d : Drive) :
    let t := dropOne p s d
    t = { s with drives := t.drives, ports := t.ports }
      ∧ t.drive d = reservationEnded p (s.drive d) ∧ (∀ x, x ≠ d → t.drive x = s.drive x)
      ∧ ∀ q, t.port q = toldFree (freedFor s p q [d]) (s.port q) := by
  unfold dropOne reservationEnded freedFor
  by_cases ho : (s.drive d).unit.owner = some p
  · obtain ⟨t, ht, hframe, hport⟩ := freeWanted_eq (d := d)
      (s := s.onDrive d fun dr => { dr with unit := { dr.unit with owner := none } })
    have hend : s.endReservation d = t := ht
    simp only [ho, if_true, hend]
    refine ⟨by rw [hframe]; rfl, ?_, fun x hx => ?_, fun q => ?_⟩
    · rw [hframe, drive_withPorts, drive_onDrive_same, drive_onDrive_same]
    · rw [hframe, drive_withPorts, drive_onDrive_other _ hx, drive_onDrive_other _ hx]
    · rw [hport, drive_onDrive_same, onDrive_port]
      cases hw : ofPort (s.drive d).unit.wanted q <;> simp [ho, hw, toldFree]
  · simp only [ho, if_false]
    exact ⟨trivial, trivial, fun _ _ => trivial, fun q => by simp [toldFree, ho]⟩

/-- A list of drives freed in order. -/
theorem foldl_dropOne (hn : ds.Nodup) (s : State) (p : Port) :
    let t := ds.foldl (dropOne p) s
    t = { s with drives := t.drives, ports := t.ports }
      ∧ (∀ d ∈ ds, t.drive d = reservationEnded p (s.drive d)) ∧ (∀ d, d ∉ ds → t.drive d = s.drive d)
      ∧ ∀ q, t.port q = toldFree (freedFor s p q ds) (s.port q) := by
  induction ds generalizing s with
  | nil => exact ⟨rfl, nofun, fun _ _ => rfl, fun _ => rfl⟩
  | cons a ds ih =>
    obtain ⟨ha, hn⟩ := List.nodup_cons.1 hn
    obtain ⟨hframe, hdrive, hothers, hport⟩ := dropOne_spec s p a
    rw [List.foldl_cons]
    generalize dropOne p s a = v at *
    obtain ⟨hframe', hdrive', hothers', hport'⟩ := ih hn v
    generalize List.foldl (dropOne p) v ds = t at *
    have hne : ∀ d ∈ ds, d ≠ a := fun d hd hda => ha (hda ▸ hd)
    refine ⟨by rw [hframe', hframe], fun d hd => ?_, fun d hd => ?_, fun q => ?_⟩
    · rcases List.mem_cons.1 hd with rfl | hd
      · rw [hothers' d ha, hdrive]
      · rw [hdrive' d hd, hothers d (hne d hd)]
    · obtain ⟨hda, hds⟩ := not_or.1 (mt List.mem_cons.2 hd)
      rw [hothers' d hds, hothers d hda]
    · have hfreed : freedFor v p q ds = freedFor s p q ds := List.filter_congr fun d hd => by rw [hothers d (hne d hd)]
      have hlist : freedFor s p q (a :: ds) = freedFor s p q [a] ++ freedFor s p q ds := List.filter_append [a] ds
      rw [hport', hport, hfreed, hlist, toldFree, toldFree, toldFree, List.foldl_append]

/-- A drive's record as a port reset leaves its reservation and its wanted set. -/
def dropped (p : Port) (dr : DriveRec) : DriveRec :=
  { reservationEnded p dr with
    unit := { (reservationEnded p dr).unit with wanted := setOfPort (reservationEnded p dr).unit.wanted p false } }

theorem dropReservations_spec (s : State) (p : Port) :
    let t := s.dropReservations p
    t = { s with drives := t.drives, ports := t.ports } ∧ (∀ d, t.drive d = dropped p (s.drive d))
      ∧ ∀ q, t.port q = toldFree (freedFor s p q allDrives) (s.port q) := by
  obtain ⟨hframe, hdrive, -, hport⟩ := foldl_dropOne nodup_allDrives s p
  obtain ⟨hframe', hdrive'⟩ := forDrives_onDrive
    (fun _ dr => { dr with unit := { dr.unit with wanted := setOfPort dr.unit.wanted p false } })
    (allDrives.foldl (dropOne p) s)
  have heq : s.dropReservations p = forDrives (fun s d => s.onDrive d fun dr =>
      { dr with unit := { dr.unit with wanted := setOfPort dr.unit.wanted p false } }) (allDrives.foldl (dropOne p) s) := rfl
  rw [heq]
  generalize allDrives.foldl (dropOne p) s = v at *
  generalize forDrives _ v = t at *
  refine ⟨by rw [hframe', hframe], fun d => ?_, fun q => ?_⟩
  · rw [hdrive', hdrive d (mem_allDrives d)]
    rfl
  · rw [← hport, hframe']
    rfl

/-- The reservation and the wanted set of a drive after a port reset. -/
theorem dropped_spec (p : Port) (dr : DriveRec) :
    dropped p dr = { dr with unit := (dropped p dr).unit }
      ∧ (dropped p dr).unit.attention = dr.unit.attention
      ∧ (dropped p dr).unit.owner = dr.unit.owner.filter (· != p)
      ∧ ∀ q, ofPort (dropped p dr).unit.wanted q = (ofPort dr.unit.wanted q && q != p && dr.unit.owner != some p) := by
  have hwanted : ∀ (v : Vector Bool 4) (q : Port), ofPort (setOfPort v p false) q = (ofPort v q && q != p) := fun v q => by
    by_cases hq : q = p
    · simp [hq]
    · simp [ofPort_setOfPort_other _ _ hq, hq]
  have hnobody : ∀ q : Port, ofPort (Vector.replicate 4 false) q = false := fun q => by simp [ofPort]
  unfold dropped reservationEnded
  by_cases ho : dr.unit.owner = some p
  · simp only [ho, if_true]
    exact ⟨trivial, trivial, by simp [Option.filter], fun q => by simp [hwanted, hnobody]⟩
  · simp only [ho, if_false]
    refine ⟨trivial, trivial, ?_, fun q => ?_⟩
    · cases hx : dr.unit.owner with
      | none => rfl
      | some x =>
        have hne : x ≠ p := fun h => ho (by rw [hx, h])
        simp [Option.filter, hne]
    · have hne : (dr.unit.owner != some p) = true := by simpa using ho
      rw [hwanted, hne, Bool.and_true]

/-! #### Windows freed (R176) -/

/-- A window freed, where it is the port's. -/
def freeWindow (p : Port) (s : State) (i : Fin 4) : State :=
  match s.windows[i] with
  | some w => if w.owner = p then { s with windows := s.windows.set i.val none i.isLt } else s
  | none => s

theorem freeWindow_spec (s : State) (p : Port) (i : Fin 4) :
    let t := freeWindow p s i
    t = { s with windows := t.windows } ∧ t.windows[i] = s.windows[i].filter (fun w => w.owner != p)
      ∧ ∀ j, j ≠ i → t.windows[j] = s.windows[j] := by
  unfold freeWindow
  cases hw : s.windows[i] with
  | none => exact ⟨rfl, hw, fun _ _ => rfl⟩
  | some w =>
    by_cases ho : w.owner = p
    · have hother : ∀ j : Fin 4, j ≠ i → (s.windows.set i.val none i.isLt)[j] = s.windows[j] := fun j hj => by
        have hne : i.val ≠ j.val := fun h => hj (Fin.ext h.symm)
        simp [hne]
      simp only [ho, if_true]
      exact ⟨trivial, by simp [Option.filter, ho], hother⟩
    · simp only [ho, if_false]
      exact ⟨trivial, by simp [hw, Option.filter, ho], fun _ _ => trivial⟩

theorem foldl_freeWindow {is : List (Fin 4)} (hn : is.Nodup) (s : State) (p : Port) :
    let t := is.foldl (freeWindow p) s
    t = { s with windows := t.windows } ∧ (∀ i ∈ is, t.windows[i] = s.windows[i].filter fun w => w.owner != p)
      ∧ ∀ i, i ∉ is → t.windows[i] = s.windows[i] := by
  induction is generalizing s with
  | nil => exact ⟨rfl, nofun, fun _ _ => rfl⟩
  | cons a is ih =>
    obtain ⟨ha, hn⟩ := List.nodup_cons.1 hn
    obtain ⟨hframe, hwindow, hothers⟩ := freeWindow_spec s p a
    rw [List.foldl_cons]
    generalize freeWindow p s a = v at *
    obtain ⟨hframe', hwindow', hothers'⟩ := ih hn v
    generalize List.foldl (freeWindow p) v is = t at *
    refine ⟨by rw [hframe', hframe], fun i hi => ?_, fun i hi => ?_⟩
    · rcases List.mem_cons.1 hi with rfl | hi
      · rw [hothers' i ha, hwindow]
      · rw [hwindow' i hi, hothers i fun h => ha (h ▸ hi)]
    · obtain ⟨hia, his⟩ := not_or.1 (mt List.mem_cons.2 hi)
      rw [hothers' i his, hothers i hia]

theorem freeWindows_spec (s : State) (p : Port) :
    let t := s.freeWindows p
    t = { s with windows := t.windows } ∧ ∀ i : Fin 4, t.windows[i] = s.windows[i].filter fun w => w.owner != p := by
  obtain ⟨hframe, hwindow, -⟩ := foldl_freeWindow (is := [0, 1, 2, 3]) (by decide) s p
  exact ⟨hframe, fun i => hwindow i (by revert i; decide)⟩

/-! #### The port reset behind its requests (R184) -/

/-- A port reset but for the port's requests. -/
def linkReset (s : State) (p : Port) : State :=
  State.attentionAll ((((s.onPort p PortRec.silenced).dropReservations p).freeWindows p).onPort p fun pr =>
    PortRec.withLine { pr with settings := PortSettings.initial pr.baseStrap, notices := [] }) p .portReset

/-- The record of a port that was reset: its outbound side empty, its settings at their defaults (R68, R184). -/
def resetRec (pr : PortRec) (ns : List Notice) : PortRec :=
  { pr with
    reports := [], wanted := [], sending := none, marker := none, settings := PortSettings.initial pr.baseStrap
    notices := ns, noticeLine := !ns.isEmpty }

theorem linkReset_spec (s : State) (p : Port) :
    let t := linkReset s p
    t = { s with drives := t.drives, ports := t.ports, windows := t.windows }
      ∧ t.port p = resetRec (s.port p) ((presentOf s allDrives).map (attnNotice .portReset))
      ∧ (∀ q, q ≠ p → t.port q = toldFree (freedFor s p q allDrives) (s.port q))
      ∧ (∀ i : Fin 4, t.windows[i] = s.windows[i].filter fun w => w.owner != p)
      ∧ ∀ d, t.drive d = attended p .portReset (dropped p (s.drive d)) := by
  obtain ⟨hdrop, hdropped, htold⟩ := dropReservations_spec (s.onPort p PortRec.silenced) p
  unfold linkReset
  generalize (s.onPort p PortRec.silenced).dropReservations p = v at *
  obtain ⟨hfree, hwindow⟩ := freeWindows_spec v p
  generalize v.freeWindows p = w at *
  have hdrive : ∀ d, w.drive d = dropped p (s.drive d) := fun d => by
    rw [hfree]
    exact hdropped d
  have hport : ∀ q, w.port q = toldFree (freedFor s p q allDrives) ((s.onPort p PortRec.silenced).port q) := fun q => by
    rw [hfree]
    exact htold q
  have hstate : ∀ d, (w.drive d).state = (s.drive d).state := fun d => by
    rw [hdrive, (dropped_spec p _).1]
  have hpresent : ∀ f, presentOf (w.onPort p f) allDrives = presentOf s allDrives := fun f =>
    List.filter_congr fun d _ => by rw [onPort_drive, hstate]
  obtain ⟨ns, l, hns⟩ := toldFree_frame (ds := freedFor s p p allDrives) (pr := (s.port p).silenced)
  obtain ⟨hframe, hattended, -, hothers, hself⟩ := foldl_attend (p := p) (r := .portReset) nodup_allDrives
    (s := w.onPort p fun pr => PortRec.withLine { pr with settings := PortSettings.initial pr.baseStrap, notices := [] })
    (by rw [port_onPort_same]; rfl) (by rw [port_onPort_same]; exact fun _ _ _ hn => absurd hn List.not_mem_nil)
  have hall : ∀ x : State, x.attentionAll p .portReset = allDrives.foldl (attend p .portReset) x := fun _ => rfl
  rw [hall]
  generalize List.foldl (attend p .portReset) _ allDrives = t at *
  refine ⟨?_, ?_, fun q hq => ?_, fun i => ?_, fun d => ?_⟩
  · rw [hframe, hfree, hdrop]
    rfl
  · rw [hself, port_onPort_same, hport, port_onPort_same, hns, hpresent]
    simp [PortRec.withLine, resetRec, PortRec.silenced, PortSettings.initial]
  · rw [hothers q hq, port_onPort_other _ hq, hport, port_onPort_other _ hq]
  · rw [hframe]
    exact hwindow i |>.trans (by rw [hdrop]; rfl)
  · rw [hattended d (mem_allDrives d), onPort_drive, hdrive]

end

end Sys2Proof.Proofs

/-! ### What a port reset does to the port's requests (R72) -/

namespace Sys2Proof.Proofs
open Sys2Proof Sys2Proof.Machine Sys2Proof.Laws

section
variable {s : State} {p : Port} {d : Drive} {a r : Request} {l : List Request} {n : Nat} {dr : DriveRec}

/-- Whether a request of a reset port leaves at once: neither detached before, nor ended early, nor at work. -/
def goesNow (r : Request) : Bool :=
  !r.detached && !(r.earlyEnded || decide (r.state = .transferring) || decide (r.state = .sparing))

/-- The record of a request that stays: detached, its timers stopped. -/
def cutOff (r : Request) : Request := if r.detached then r else { r.stopTimers with detached := true }

/-- What a table entry becomes as a list of requests is abandoned. -/
def cutAway (l : List Request) (x : Request) : Option Request :=
  if l.any fun r => r.rid == x.rid then if goesNow x then none else some (cutOff x) else some x

/-- Whether one of a list that leaves has a place of the arrival order; and whether one of them owns a drive's arm. -/
def leftBy (l : List Request) (n : Nat) : Bool := l.any fun r => goesNow r && r.rid == n
def leavesArm (l : List Request) (d : Drive) (dr : DriveRec) : Bool :=
  l.any fun r => goesNow r && (decide (r.drive = d) && decide (dr.owner = some r.rid))

/-- A drive's record as the requests of a list leave its arm. -/
def leftDrive (l : List Request) (d : Drive) (dr : DriveRec) : DriveRec :=
  if leavesArm l d dr then dr.loseOwner else dr

/-- A place of the arrival order that no path, preference or sparing buffer names. -/
def holdsNothing (s : State) (n : Nat) : Prop := s.pathless n ∧ s.buffer.holder ≠ some n ∧ n ∉ s.buffer.waiters

/-- What abandoning a list of requests makes of a state. -/
structure Abandoned (s t : State) (l : List Request) : Prop where
  frame : t = { s with
    drives := t.drives, table := t.table, path0 := t.path0, path1 := t.path1, preference := t.preference
    segments := t.segments, buffer := t.buffer }
  table : t.table = s.table.filterMap (cutAway l)
  segments : ∀ i : Fin 8, t.segments[i] = s.segments[i].filter fun n => !leftBy l n
  freed : ∀ r ∈ l, goesNow r = true → holdsNothing t r.rid
  kept : ∀ n, holdsNothing s n → holdsNothing t n
  drives : ∀ d, t.drive d = leftDrive l d (s.drive d)

/-! #### One request -/

theorem cutOff_rid (r : Request) : (cutOff r).rid = r.rid := by
  unfold cutOff
  split <;> rfl

theorem abandon_goes (h : s.entry r) (hg : goesNow r = true) : s.abandon r.rid = givenBack s r := by
  simp only [goesNow, Bool.and_eq_true, Bool.not_eq_true', Bool.or_eq_false_iff, decide_eq_false_iff_not] at hg
  obtain ⟨hd, ⟨he, ht⟩, hs⟩ := hg
  simp only [State.abandon, request?_entry h, hd, he, ht, hs]
  exact leaveTable_unfolded (request?_entry h) h.2.2 (Or.inl he)

theorem abandon_stays (h : s.entry r) (hg : goesNow r = false) : s.abandon r.rid = s.withRequest (cutOff r) := by
  simp only [State.abandon, request?_entry h, cutOff]
  by_cases hd : r.detached = true
  · rw [if_pos hd, if_pos hd, withRequest_self h]
  · have hstays : r.earlyEnded = true ∨ r.state = .transferring ∨ r.state = .sparing := by
      simpa [goesNow, hd, or_assoc, or_iff_not_imp_left] using hg
    rw [if_neg hd, if_neg hd, if_pos hstays]
    exact putRequest_table (r := { r.stopTimers with detached := true }) h.2.2

theorem holdsNothing_givenBack (h : n = r.rid ∨ holdsNothing s n) : holdsNothing (givenBack s r) n := by
  have hpath := pathless_leavePaths (s := s) (h.imp id And.left)
  obtain ⟨v, hv, -⟩ := givenBack_spec s r
  have hleave : s.leavePaths r.rid = _ :=
    releasePath_eq_released { s with preference := s.preference.filter (· != r.rid) } r.rid
  rw [hleave] at hpath
  rw [hv]
  refine ⟨hpath, fun hholds => ?_, fun hwaits => ?_⟩
  · replace hholds : (if s.buffer.holder = some r.rid then none else s.buffer.holder) = some n := hholds
    split at hholds
    · cases hholds
    · next hne =>
      rcases h with rfl | h
      · exact hne hholds
      · exact h.2.1 hholds
  · obtain ⟨hmem, hne⟩ := List.mem_filter.1 hwaits
    rcases h with rfl | h
    · simp at hne
    · exact h.2.2 hmem

theorem abandoned_goes (h : s.entry r) (hg : goesNow r = true) : Abandoned s (givenBack s r) [r] := by
  obtain ⟨v, hv, hseg⟩ := givenBack_spec s r
  refine ⟨by rw [hv]; rfl, ?_, fun i => ?_, fun x hx _ => ?_,
    fun n hn => holdsNothing_givenBack (Or.inr hn), fun d => ?_⟩
  · rw [givenBack_table, ← List.filterMap_eq_filter]
    refine List.filterMap_congr fun x hx => ?_
    by_cases hid : x.rid = r.rid
    · simp [cutAway, h.2.1 x hx hid, hg, Option.guard]
    · simp [cutAway, hid, Ne.symm hid, Option.guard]
  · rw [hv]
    refine (hseg i).trans ?_
    cases hs : s.segments[i] with
    | none => rfl
    | some m =>
      by_cases hm : r.rid = m
      · simp [leftBy, hg, hm, Option.filter]
      · simp [leftBy, hg, hm, Ne.symm hm, Option.filter]
  · rw [List.mem_singleton.1 hx]
    exact holdsNothing_givenBack (Or.inl rfl)
  · rw [givenBack_drive, leftDrive, leavesArm, lost]
    by_cases hd : r.drive = d
    · simp [hg, hd]
    · simp [hg, hd, Ne.symm hd]

theorem abandoned_stays (h : s.entry r) (hg : goesNow r = false) : Abandoned s (s.withRequest (cutOff r)) [r] := by
  refine ⟨rfl, ?_, fun i => ?_, fun x hx hgo => ?_, fun n hn => hn, fun d => ?_⟩
  · rw [State.withRequest, ← List.filterMap_eq_map]
    refine List.filterMap_congr fun x hx => ?_
    by_cases hid : x.rid = r.rid
    · simp [cutAway, cutOff_rid, h.2.1 x hx hid, hg]
    · simp [cutAway, cutOff_rid, hid, Ne.symm hid]
  · show s.segments[i] = _
    cases s.segments[i] <;> simp [leftBy, hg, Option.filter]
  · rw [List.mem_singleton.1 hx, hg] at hgo
    cases hgo
  · simp [leftDrive, leavesArm, hg]

theorem abandoned_one (h : s.entry r) : Abandoned s (s.abandon r.rid) [r] := by
  cases hg : goesNow r with
  | true => rw [abandon_goes h hg]; exact abandoned_goes h hg
  | false => rw [abandon_stays h hg]; exact abandoned_stays h hg

/-! #### A list of requests -/

theorem cutAway_cons (h : a.rid ∉ l.map (·.rid)) (x : Request) :
    (cutAway [a] x).bind (cutAway l) = cutAway (a :: l) x := by
  have hout : l.any (fun r => r.rid == a.rid) = false := by simpa [List.any_eq_false] using h
  by_cases hid : a.rid = x.rid
  · rw [hid] at hout
    cases hg : goesNow x <;> simp [cutAway, hid, hg, cutOff_rid, hout]
  · simp [cutAway, hid]

theorem leftDrive_cons : leftDrive l d (leftDrive [a] d dr) = leftDrive (a :: l) d dr := by
  have hnone : ∀ dr : DriveRec, leavesArm l d dr.loseOwner = false := fun dr => by
    simp [leavesArm, DriveRec.loseOwner]
  have hcons : leavesArm (a :: l) d dr = (leavesArm [a] d dr || leavesArm l d dr) := by simp [leavesArm]
  unfold leftDrive
  rw [hcons]
  cases h : leavesArm [a] d dr <;> simp [hnone]

/-- An entry stays as it was when another request is abandoned. -/
theorem entry_abandoned {t : State} (h : Abandoned s t [a]) (hr : s.entry r) (hne : a.rid ≠ r.rid) : t.entry r := by
  have hcut : ∀ x : Request, ∀ q ∈ cutAway [a] x, q.rid = x.rid := fun x q hq => by
    unfold cutAway at hq
    split at hq
    · split at hq
      · cases hq
      · rw [← Option.some.inj hq, cutOff_rid]
    · rw [Option.some.inj hq]
  have hsame : cutAway [a] r = some r := by simp [cutAway, hne]
  refine ⟨?_, fun q hq hid => ?_, hr.2.2⟩
  · rw [h.table]
    exact List.mem_filterMap.2 ⟨r, hr.1, hsame⟩
  · rw [h.table] at hq
    obtain ⟨x, hx, hxq⟩ := List.mem_filterMap.1 hq
    have hxr : x = r := hr.2.1 x hx ((hcut x q hxq).symm.trans hid)
    rw [hxr, hsame] at hxq
    exact (Option.some.inj hxq).symm

theorem abandoned_all (hl : ∀ r ∈ l, s.entry r) (hn : (l.map (·.rid)).Nodup) :
    Abandoned s ((l.map (·.rid)).foldl State.abandon s) l := by
  induction l generalizing s with
  | nil =>
    refine ⟨rfl, ?_, fun i => ?_, fun r hr => absurd hr List.not_mem_nil, fun n hn => hn, fun d => ?_⟩
    · exact List.filterMap_some.symm
    · show s.segments[i] = _
      cases s.segments[i] <;> rfl
    · simp [leftDrive, leavesArm]
  | cons a l ih =>
    obtain ⟨ha, hn⟩ := List.nodup_cons.1 hn
    have hone := abandoned_one (hl a (by simp))
    rw [List.map_cons, List.foldl_cons]
    generalize s.abandon a.rid = v at *
    have hrest := ih (s := v) (fun r hr => entry_abandoned hone (hl r (by simp [hr]))
      fun hid => ha (List.mem_map.2 ⟨r, hr, hid.symm⟩)) hn
    generalize List.foldl State.abandon v (l.map (·.rid)) = t at *
    have hframe := hrest.frame
    rw [hone.frame] at hframe
    refine ⟨hframe, ?_, fun i => ?_, fun r hr hg => ?_, fun n h => hrest.kept n (hone.kept n h),
      fun d => by rw [hrest.drives, hone.drives, leftDrive_cons]⟩
    · rw [hrest.table, hone.table, List.filterMap_filterMap]
      exact List.filterMap_congr fun x _ => cutAway_cons ha x
    · rw [hrest.segments, hone.segments]
      cases s.segments[i] with
      | none => rfl
      | some m =>
        have hcons : leftBy (a :: l) m = (leftBy [a] m || leftBy l m) := by simp [leftBy]
        cases h : leftBy [a] m <;> simp [hcons, h, Option.filter]
    · rcases List.mem_cons.1 hr with rfl | hr
      · exact hrest.kept _ (hone.freed _ (by simp) hg)
      · exact hrest.freed r hr hg

end

end Sys2Proof.Proofs

/-! ### The port reset (R72, R162, R176, R184) -/

namespace Sys2Proof.Proofs
open Sys2Proof Sys2Proof.Machine Sys2Proof.Laws

section
variable {s t w : State} {p q : Port} {d : Drive} {l : List Request} {c : Instr}

/-! #### A port with nothing to send -/

/-- A port with no frame waiting or being sent, and no request that could bring one. -/
def silent (s : State) (p : Port) : Prop :=
  (s.port p).reports = [] ∧ (s.port p).wanted = [] ∧ (s.port p).sending = none ∧ s.entriesOf p = []

theorem silent_of (h : silent s p) (hp : t.port p = s.port p) (ht : t.table = s.table) : silent t p := by
  unfold silent State.entriesOf
  rw [hp, ht]
  exact h

theorem pump_silent (h : silent s p) (q : Port) : (s.pump q).port p = s.port p ∧ silent (s.pump q) p := by
  have hport : (s.pump q).port p = s.port p := by
    by_cases hq : p = q
    · subst hq
      obtain ⟨hreports, hwanted, hsending, hentries⟩ := h
      simp [State.pump, State.nextFrame, hreports, hwanted, hsending, hentries]
    · rcases pump_eq s q with heq | ⟨w, x, heq⟩
      · rw [heq]
      · rw [heq, port_onPort_other _ hq]
  exact ⟨hport, silent_of h hport pump_table⟩

theorem withdraw_silent (h : silent s p) (q : Port) (f : WantedFrame → Bool) :
    let t := s.onPort q fun pr => { pr with wanted := pr.wanted.filter f }
    t.port p = s.port p ∧ silent t p := by
  have hport : (s.onPort q fun pr => { pr with wanted := pr.wanted.filter f }).port p = s.port p := by
    by_cases hq : p = q
    · subst hq
      rw [port_onPort_same]
      show { s.port p with wanted := (s.port p).wanted.filter f } = s.port p
      rw [List.filter_eq_self.2 (by simp [h.2.1])]
    · rw [port_onPort_other _ hq]
  exact ⟨hport, silent_of h hport rfl⟩

/-- Whether a frame waiting is still of use at the end of an event. -/
def stillWanted (s : State) (w : WantedFrame) : Bool :=
  match s.table.find? (·.rid = w.rid) with
  | some r => !r.detached && r.held.isNone
  | none => false

theorem foldl_withdraw_silent (qs : List Port) (h : silent s p) :
    silent (qs.foldl (fun s q => s.onPort q fun pr => { pr with wanted := pr.wanted.filter (stillWanted s) }) s) p
      ∧ (qs.foldl (fun s q => s.onPort q fun pr => { pr with wanted := pr.wanted.filter (stillWanted s) }) s).port p
        = s.port p := by
  induction qs generalizing s with
  | nil => exact ⟨h, rfl⟩
  | cons q qs ih =>
    obtain ⟨hport, hsilent⟩ := withdraw_silent h q (stillWanted s)
    rw [List.foldl_cons]
    exact ⟨(ih hsilent).1, (ih hsilent).2.trans hport⟩

theorem withdrawWanted_eq (s : State) : s.withdrawWanted =
    allPorts.foldl (fun s q => s.onPort q fun pr => { pr with wanted := pr.wanted.filter (stillWanted s) }) s := rfl

/-- The end of an event begins no frame of such a port. -/
theorem flush_silent (h : silent s p) : s.flush.port p = s.port p := by
  have hpumped : ∀ (qs : List Port) (u : State), silent u p → (qs.foldl State.pump u).port p = u.port p := by
    intro qs
    induction qs with
    | nil => exact fun _ _ => rfl
    | cons q qs ih => exact fun u hu => (ih _ (pump_silent hu q).2).trans (pump_silent hu q).1
  obtain ⟨hsilent, hport⟩ := foldl_withdraw_silent allPorts h
  rw [← withdrawWanted_eq] at hsilent hport
  exact (hpumped allPorts _ hsilent).trans hport

/-! #### What follows a reset -/

theorem quiet_linkReset (h : s.quiet) : (linkReset s p).quiet := by
  obtain ⟨hframe, -, -, -, hdrive⟩ := linkReset_spec s p
  generalize linkReset s p = t at *
  have hkeeps : ∀ d, ∃ u, t.drive d = { s.drive d with unit := u } := fun d => by
    rw [hdrive, (dropped_spec p _).1, attended]
    split
    · exact ⟨_, rfl⟩
    · exact ⟨_, rfl⟩
  have htable : t.table = s.table := by rw [hframe]
  refine ⟨idle_of h.1 (by rw [hframe]) (settled_congr htable) fun d hfree => ?_, ?_⟩
  · obtain ⟨u, hu⟩ := hkeeps d
    refine ⟨?_, queue_congr htable (by rw [hu])⟩
    rw [hu] at hfree
    exact hfree
  · rw [startable_congr (s := s) (by rw [hframe]) (by rw [hframe]) fun d => ?_, h.2]
    obtain ⟨u, hu⟩ := hkeeps d
    rw [hu]
    exact ⟨rfl, rfl, rfl⟩

/-! #### The reset of a port, part by part -/

/-- The port as the link's loss or reset leaves it before its requests are abandoned. -/
def linkTaken (s : State) (p : Port) (c : Instr) : State :=
  s.onPort p fun pr => { pr with online := decide (c = .linkReset p) }

theorem portReset_eq (s : State) (p : Port) :
    s.portReset p = s.close (linkReset (((s.entriesOf p).map (·.rid)).foldl State.abandon s) p) := rfl

theorem exec_portReset (hc : c = .linkReset p ∨ c = .linkSignalLoss p) (hpow : s.powered = true)
    (hon : (s.port p).online = true) :
    exec c s = .next (s.close (linkReset (((s.entriesOf p).map (·.rid)).foldl State.abandon (linkTaken s p c)) p)) := by
  rcases hc with rfl | rfl
  · have hsame : linkTaken s p (.linkReset p) = s := onPort_id (by simp [← hon])
    rw [hsame]
    show s.live (if (s.port p).online then s.portReset p else s) = _
    rw [live_powered hpow, if_pos hon, portReset_eq]
  · have htaken : linkTaken s p (.linkSignalLoss p) = s.onPort p fun pr => { pr with online := false } := rfl
    rw [htaken]
    show s.live (if (s.port p).online then (s.onPort p fun pr => { pr with online := false }).portReset p else s) = _
    rw [live_powered hpow, if_pos hon, portReset_eq, close_onPort]
    rfl

/-- Attention set for a port on a drive that is present, and nothing else (R160). -/
theorem attended_spec (p : Port) (r : AttnReason) (dr : DriveRec) :
    attended p r dr = { dr with unit := (attended p r dr).unit } ∧ (attended p r dr).unit.owner = dr.unit.owner
      ∧ (attended p r dr).unit.wanted = dr.unit.wanted
      ∧ ∀ q, ofPort (attended p r dr).unit.attention q =
          if q = p ∧ dr.state ≠ .absent then some r else ofPort dr.unit.attention q := by
  unfold attended
  by_cases habs : dr.state = .absent
  · rw [if_pos habs]
    exact ⟨rfl, rfl, rfl, fun q => by simp [habs]⟩
  · rw [if_neg habs]
    refine ⟨rfl, rfl, rfl, fun q => ?_⟩
    by_cases hq : q = p
    · simp [hq, habs]
    · simp [hq, ofPort_setOfPort_other _ _ hq]

/-- The arm's part of a drive's record, where its owner may leave. -/
theorem loseOwner_if (dr : DriveRec) (leaves : Bool) (u : UnitRec) :
    ({ (if leaves then dr.loseOwner else dr) with unit := u } : DriveRec) = { dr with
      unit := u, owner := if leaves then none else dr.owner, retryMark := if leaves then false else dr.retryMark
      arm := if leaves = true ∧ dr.arm = .onCylinder then .idle else dr.arm } := by
  cases leaves with
  | false => simp
  | true => cases harm : dr.arm <;> simp [DriveRec.loseOwner, harm]

/-- The record of a drive after a port reset; `leaves` where a request that goes was its arm owner. -/
theorem resetDrive_spec (p : Port) (dr : DriveRec) (leaves : Bool) :
    let x := attended p .portReset (dropped p (if leaves then dr.loseOwner else dr))
    x = { dr with
        unit := x.unit, owner := if leaves then none else dr.owner, retryMark := if leaves then false else dr.retryMark
        arm := if leaves = true ∧ dr.arm = .onCylinder then .idle else dr.arm }
      ∧ x.unit.owner = dr.unit.owner.filter (· != p)
      ∧ (∀ q, ofPort x.unit.wanted q = (ofPort dr.unit.wanted q && q != p && dr.unit.owner != some p))
      ∧ ∀ q, ofPort x.unit.attention q =
          if q = p ∧ dr.state ≠ .absent then some .portReset else ofPort dr.unit.attention q := by
  intro x
  have hstate : (dropped p (if leaves then dr.loseOwner else dr)).state = dr.state := by
    rw [(dropped_spec p _).1]
    cases leaves <;> rfl
  obtain ⟨hframe, hattention, howner, hwanted⟩ := dropped_spec p (if leaves then dr.loseOwner else dr)
  have hunit : (if leaves then dr.loseOwner else dr).unit = dr.unit := by cases leaves <;> rfl
  rw [hunit] at hattention howner hwanted
  obtain ⟨hother, hunitOwner, hunitWanted, hunitAttention⟩ :=
    attended_spec p .portReset (dropped p (if leaves then dr.loseOwner else dr))
  refine ⟨?_, hunitOwner.trans howner, fun q => by rw [hunitWanted, hwanted], fun q => ?_⟩
  · have hrec : ∀ u, ({ dropped p (if leaves then dr.loseOwner else dr) with unit := u } : DriveRec)
        = { (if leaves then dr.loseOwner else dr) with unit := u } := fun u => by rw [hframe]
    exact (hother.trans (hrec _)).trans (loseOwner_if dr leaves _)
  · rw [hunitAttention, hattention, hstate]

/-- A port reset part by part, its requests abandoned. -/
structure PortReset (s u : State) (p : Port) (c : Instr) (l : List Request) : Prop where
  frame : u = { s with
    drives := u.drives, ports := u.ports, table := u.table, path0 := u.path0, path1 := u.path1
    preference := u.preference, segments := u.segments, buffer := u.buffer, windows := u.windows }
  table : u.table = s.table.filterMap (cutAway l)
  segments : ∀ i : Fin 8, u.segments[i] = s.segments[i].filter fun n => !leftBy l n
  freed : ∀ r ∈ l, goesNow r = true → holdsNothing u r.rid
  self : u.port p = resetRec { s.port p with online := decide (c = .linkReset p) }
    ((presentOf s allDrives).map (attnNotice .portReset))
  others : ∀ q, q ≠ p → u.port q = toldFree (freedFor s p q allDrives) (s.port q)
  windows : ∀ i : Fin 4, u.windows[i] = s.windows[i].filter fun w => w.owner != p
  drives : ∀ d, u.drive d = attended p .portReset (dropped p (leftDrive l d (s.drive d)))

theorem portReset_spec (h : Abandoned (linkTaken s p c) w l) : PortReset s (linkReset w p) p c l := by
  obtain ⟨hframe, htable, hsegments, hfreed, -, hdrives⟩ := h
  obtain ⟨hreset, hself, hothers, hwindows, hrecords⟩ := linkReset_spec w p
  generalize linkReset w p = u at *
  have hport : ∀ q, w.port q = (linkTaken s p c).port q := fun q => by rw [hframe]; rfl
  have hkeeps : ∀ d, (w.drive d).state = (s.drive d).state ∧ (w.drive d).unit = (s.drive d).unit := fun d => by
    rw [hdrives, leftDrive]
    split <;> exact ⟨rfl, rfl⟩
  have hpresent : presentOf w allDrives = presentOf s allDrives := List.filter_congr fun d _ => by rw [(hkeeps d).1]
  have hfree : ∀ q, freedFor w p q allDrives = freedFor s p q allDrives := fun q =>
    List.filter_congr fun d _ => by rw [(hkeeps d).2]
  refine ⟨?_, ?_, fun i => ?_, fun r hr hg => ?_, ?_, fun q hq => ?_, fun i => ?_, fun d => ?_⟩
  · rw [hreset, hframe]
    rfl
  · rw [hreset]
    exact htable
  · rw [hreset]
    exact hsegments i
  · rw [hreset]
    exact hfreed r hr hg
  · rw [hself, hpresent, hport, linkTaken, port_onPort_same]
  · rw [hothers q hq, hfree, hport, linkTaken, port_onPort_other _ hq]
  · rw [hwindows, hframe]
    rfl
  · rw [hrecords, hdrives]
    rfl

/-- The entries of a port in a table as it can stand: each the only one of its place, and abandoned in their order. -/
theorem abandoned_port (h : s.tableHolds) (hk : ∀ q ∈ s.table, q.kind ≠ .labelUpdate) (p : Port) (c : Instr) :
    Abandoned (linkTaken s p c) (((s.entriesOf p).map (·.rid)).foldl State.abandon (linkTaken s p c)) (s.entriesOf p) := by
  obtain ⟨-, hrise, -⟩ := h
  refine abandoned_all (fun r hr => ?_) ?_
  · have hmem := List.mem_of_mem_filter hr
    exact ⟨hmem, fun q hq hid => eq_of_rid_eq hrise hq hmem hid, hk r hmem⟩
  · exact (hrise.imp Nat.ne_of_lt).sublist (List.filter_sublist.map _)

/-- Which entries of the table are abandoned, by their places. -/
theorem any_entriesOf (hrise : (s.table.map (·.rid)).Pairwise (· < ·)) {x : Request} (hx : x ∈ s.table)
    (f : Request → Bool) : (s.entriesOf p).any (fun r => f r && r.rid == x.rid) = (decide (x.port = p) && f x) := by
  rw [Bool.eq_iff_iff]
  simp only [List.any_eq_true, Bool.and_eq_true, beq_iff_eq, decide_eq_true_eq]
  constructor
  · rintro ⟨r, hr, hf, hid⟩
    obtain ⟨hmem, hport⟩ := List.mem_filter.1 hr
    obtain rfl := eq_of_rid_eq hrise hmem hx hid
    exact ⟨of_decide_eq_true hport, hf⟩
  · rintro ⟨hport, hf⟩
    exact ⟨x, List.mem_filter.2 ⟨hx, decide_eq_true hport⟩, hf, rfl⟩

/-- The table with a port's entries abandoned. -/
theorem cutAway_table (hrise : (s.table.map (·.rid)).Pairwise (· < ·)) (p : Port) :
    s.table.filterMap (cutAway (s.entriesOf p)) = (s.table.filter fun r => !leftBy (s.entriesOf p) r.rid).map fun r =>
      if r.port = p ∧ r.detached = false then { r.stopTimers with detached := true } else r := by
  rw [← List.filterMap_eq_map, List.filterMap_filter]
  refine List.filterMap_congr fun x hx => ?_
  have hleft : leftBy (s.entriesOf p) x.rid = (decide (x.port = p) && goesNow x) := any_entriesOf hrise hx goesNow
  have hmine : (s.entriesOf p).any (fun r => r.rid == x.rid) = decide (x.port = p) := by
    simpa using any_entriesOf (p := p) hrise hx fun _ => true
  rw [hleft, cutAway, hmine]
  by_cases hp : x.port = p
  · cases hg : goesNow x with
    | true => simp [hp]
    | false => cases hd : x.detached <;> simp [hp, cutOff, hd]
  · simp [hp]

/-- Where the port has no request, and nothing followed before, nothing follows the reset. -/
theorem portReset_alone (hnone : s.entriesOf p = []) (h : PortReset s t p c []) : t.flush.port p = t.port p := by
  refine flush_silent ⟨by rw [h.self]; rfl, by rw [h.self]; rfl, by rw [h.self]; rfl, ?_⟩
  have htable : t.table = s.table := h.table.trans List.filterMap_some
  rw [State.entriesOf, htable]
  exact hnone

end

/-- Settles O10: the port's requests are abandoned, and then the port, its reservations and its windows are reset. -/
theorem portResetLeaves : Obligations.PortResetLeaves := by
  intro s p c hc hpow hon
  have hexec := exec_portReset hc hpow hon
  refine ⟨fun hnone hq => ?_, fun hholds hkinds => ?_⟩
  · have hspec := portReset_spec (abandoned_all (s := linkTaken s p c) (l := [])
      (fun r hr => absurd hr List.not_mem_nil) List.nodup_nil)
    have hquiet : (linkReset (linkTaken s p c) p).quiet := quiet_linkReset hq
    have hframe := (linkReset_spec (linkTaken s p c) p).1
    rw [hnone, List.map_nil, List.foldl_nil, close_quiet hquiet] at hexec
    rw [List.map_nil, List.foldl_nil] at hspec
    generalize linkReset (linkTaken s p c) p = u at *
    have hself := portReset_alone hnone hspec
    obtain ⟨hflush, hports⟩ := flush_sameButFrames (s := u)
    generalize u.flush = t at *
    have hdrive : ∀ d, t.drive d = u.drive d := fun d => by rw [hflush]; rfl
    refine ⟨t, hexec, ?_, ?_, ?_, fun q hq => ?_, fun i => ?_, fun d => ?_⟩
    · rw [hflush, hframe]
      rfl
    · rw [hself, hspec.self]
      rfl
    · rw [hself, hspec.self]
      rfl
    · obtain ⟨w, x, hx⟩ := hports q
      obtain ⟨ns, l, hns⟩ := toldFree_frame (ds := freedFor s p q allDrives) (pr := s.port q)
      rw [hx, hspec.others q hq, hns]
      exact ⟨rfl, rfl, rfl, rfl⟩
    · rw [hflush]
      exact hspec.windows i
    · have hidle : leftDrive [] d (s.drive d) = s.drive d := rfl
      rw [hdrive, hspec.drives d, hidle]
      obtain ⟨hrec, hrest⟩ := resetDrive_spec p (s.drive d) false
      exact ⟨by simpa using hrec, hrest⟩
  · have hspec := portReset_spec (abandoned_port hholds hkinds p c)
    generalize linkReset _ p = u at *
    intro stays gone left freed
    have hany : ∀ f : Request → Bool, gone.any f = (s.entriesOf p).any fun r => goesNow r && f r := fun f => by
      simp only [gone, State.entriesOf, goesNow, stays, List.any_filter, Bool.and_assoc]
    have hleft : ∀ n, left n = leftBy (s.entriesOf p) n := fun n => hany _
    have hgone : ∀ r ∈ gone, r ∈ s.entriesOf p ∧ goesNow r = true := fun r hr => by
      obtain ⟨hmem, hport⟩ := List.mem_filter.1 hr
      rw [Bool.and_assoc, Bool.and_eq_true] at hport
      exact ⟨List.mem_filter.2 ⟨hmem, hport.1⟩, hport.2⟩
    refine ⟨u, hexec, hspec.frame, ?_, fun i => ?_, fun r hr => ?_, ?_, ?_, fun q hq => ?_, hspec.windows, fun d => ?_⟩
    · simp only [hleft]
      exact hspec.table.trans (cutAway_table hholds.2.1 p)
    · simp only [hleft]
      exact hspec.segments i
    · obtain ⟨hmem, hgoes⟩ := hgone r hr
      obtain ⟨⟨h0, h1, hpref⟩, hholder, hwaits⟩ := hspec.freed r hmem hgoes
      exact ⟨h0, h1, hpref, hholder, hwaits⟩
    · rw [hspec.self]
      rfl
    · rw [hspec.self]
      rfl
    · rw [hspec.others q hq, toldFree_eq]
      rfl
    · intro leaves
      have hleaves : leavesArm (s.entriesOf p) d (s.drive d) = leaves := (hany _).symm
      rw [hspec.drives d, leftDrive, hleaves]
      exact resetDrive_spec p (s.drive d) leaves

end Sys2Proof.Proofs

/-! ### The seek-time profile, the estimate and the score (R83 to R86) -/

namespace Sys2Proof.Proofs
open Sys2Proof Sys2Proof.Machine Sys2Proof.Laws

theorem seekProfile_short {d : Nat} (h1 : 1 ≤ d) (h2 : d ≤ 15) : seekProfile d = 4000 + 600 * (d - 1) := by
  rw [seekProfile, if_neg (by omega), if_pos h2]

theorem seekProfile_middle {d : Nat} (h1 : 16 ≤ d) (h2 : d ≤ 99) : seekProfile d = 12600 + 120 * (d - 16) := by
  rw [seekProfile, if_neg (by omega), if_neg (by omega), if_pos h2]

theorem seekProfile_long {d : Nat} (h : 100 ≤ d) : seekProfile d = 22600 + 40 * (d - 100) := by
  rw [seekProfile, if_neg (by omega), if_neg (by omega), if_neg (by omega)]

/-- Each cylinder more of distance costs time, within a line and from one line to the next. -/
theorem seekProfile_strictMono : StrictMono seekProfile := by
  refine strictMono_nat_of_lt_succ fun d => ?_
  rcases Nat.lt_or_ge d 16 with hshort | hshort
  · rcases Nat.eq_zero_or_pos d with rfl | hpos
    · decide
    · rw [seekProfile_short hpos (by omega)]
      rcases Nat.lt_or_ge d 15 with hd | hd
      · rw [seekProfile_short (by omega) (by omega)]
        omega
      · rw [seekProfile_middle (by omega) (by omega)]
        omega
  · rcases Nat.lt_or_ge d 100 with hmiddle | hlong
    · rw [seekProfile_middle hshort (by omega)]
      rcases Nat.lt_or_ge d 99 with hd | hd
      · rw [seekProfile_middle (by omega) (by omega)]
        omega
      · rw [seekProfile_long (by omega)]
        omega
    · rw [seekProfile_long hlong, seekProfile_long (by omega)]
      omega

/-- Settles O55: the three lines of the profile, and its rise from each cylinder to the next. -/
theorem seekProfileValues : Obligations.SeekProfileValues :=
  ⟨rfl, fun _ => seekProfile_short, fun _ => seekProfile_middle, fun _ h _ => seekProfile_long h,
    fun _ _ h => seekProfile_strictMono h⟩

/-- One sector time after the claim sector's mark the target sector's mark passes (R93). -/
theorem claimSector_next {sector : Nat} (h : sector < 24) : (claimSector sector * 700 + 700) % 16800 = sector * 700 := by
  unfold claimSector
  omega

/-- The estimate is the seek, the wait for the claim sector, a whole revolution where its mark is just passing, and one
sector time (R85). -/
theorem transferEstimate_waits (angle cur target sector : Nat) : ∃ wait,
    transferEstimate angle cur target sector = seekProfile (distance cur target) + wait + 700 ∧ 1 ≤ wait ∧ wait ≤ 16800
      ∧ (angle + seekProfile (distance cur target) + wait) % 16800 = claimSector sector * 700 := by
  have hclaim : claimSector sector < 24 := Nat.mod_lt _ (by decide)
  unfold transferEstimate
  generalize seekProfile (distance cur target) = seek
  refine ⟨_, rfl, ?_, ?_, ?_⟩ <;> split <;> omega

theorem transferEstimate_reaches {angle cur target sector : Nat} (h : sector < 24) :
    let e := transferEstimate angle cur target sector
    let seek := seekProfile (distance cur target)
    seek + 701 ≤ e ∧ e ≤ seek + 17500 ∧ (angle + e) % 16800 = sector * 700 := by
  obtain ⟨wait, he, hlow, hhigh, hclaim⟩ := transferEstimate_waits angle cur target sector
  have hnext := claimSector_next h
  dsimp only
  rw [he]
  omega

theorem score_of_sector {s : State} {r : Request} {c sec : Nat} (h : s.target r = (c, some sec)) :
    s.score r = (transferEstimate (s.drive r.drive).angle (s.drive r.drive).curCyl c sec : Int) - 4000 * r.priority := by
  simp only [State.score, State.estimate, h]

theorem score_of_cylinder {s : State} {r : Request} {c : Nat} (h : s.target r = (c, none)) :
    s.score r = (seekProfile (distance (s.drive r.drive).curCyl c) : Int) - 4000 * r.priority := by
  simp only [State.score, State.estimate, h]

end Sys2Proof.Proofs

/-! ### The queue, eligibility, the choice and the passes (R73, R76 to R81) -/

namespace Sys2Proof.Proofs
open Sys2Proof Sys2Proof.Machine Sys2Proof.Laws

section
variable {s : State} {d : Drive} {r q x : Request} {n : Nat}

/-! #### The queue (R73) -/

theorem mem_insertBy {α : Type} {key : α → Nat} {x y : α} {l : List α} : y ∈ insertBy key x l ↔ y = x ∨ y ∈ l := by
  induction l with
  | nil => simp [insertBy]
  | cons z l ih =>
    rw [insertBy]
    split
    · exact List.mem_cons
    · rw [List.mem_cons, ih, List.mem_cons]
      exact or_left_comm

theorem mem_queue : q ∈ s.queue d ↔ q.state = .queued ∧ (q ∈ s.table ∧ q.drive = d ∨ (s.drive d).labelUpdate = some q) := by
  have htable : q ∈ s.table.filter (fun r => decide (r.drive = d) && decide (r.state = .queued)) ↔
      q.state = .queued ∧ q ∈ s.table ∧ q.drive = d := by
    simp only [List.mem_filter, Bool.and_eq_true, decide_eq_true_eq]
    tauto
  unfold State.queue
  cases hl : (s.drive d).labelUpdate with
  | none => simpa using htable
  | some u =>
    have hlabel : some u = some q ↔ q = u := by rw [Option.some_inj, eq_comm]
    by_cases hu : u.state = .queued
    · simp only [hu, if_true, mem_insertBy, htable, hlabel]
      constructor
      · rintro (rfl | ⟨hst, h⟩)
        exacts [⟨hu, .inr rfl⟩, ⟨hst, .inl h⟩]
      · rintro ⟨hst, h | rfl⟩
        exacts [.inr ⟨hst, h⟩, .inl rfl]
    · simp only [hu, if_false, htable, hlabel]
      constructor
      · exact fun ⟨hst, h⟩ => ⟨hst, .inl h⟩
      · rintro ⟨hst, h | rfl⟩
        exacts [⟨hst, h⟩, absurd hst hu]

theorem armFree_iff {dr : DriveRec} : dr.armFree = true ↔ dr.state = .ready ∧ dr.arm = .idle ∧ dr.owner = none := by
  simp [DriveRec.armFree, and_assoc]

/-! #### Overlap (R78) -/

theorem overlaps_iff {e f : Option (Nat × Nat)} :
    overlaps e f = true ↔ ∃ a b x y, e = some (a, b) ∧ f = some (x, y) ∧ a ≤ y ∧ x ≤ b := by
  rcases e with _ | ⟨a, b⟩ <;> rcases f with _ | ⟨x, y⟩ <;> simp [overlaps]

theorem bars_iff : q.bars r = true ↔ (∃ a b x y, q.extent = some (a, b) ∧ r.extent = some (x, y) ∧ a ≤ y ∧ x ≤ b)
    ∧ (q.kind.writeClass = true ∨ r.kind.writeClass = true) := by
  rw [Request.bars, Bool.and_eq_true, Bool.or_eq_true, overlaps_iff]

theorem barred_iff : s.barred r = true ↔ ∃ q : Request, q.bars r = true
    ∧ (q ∈ s.table ∧ q.drive = r.drive ∧ q.rid < r.rid ∧ (q.state = .queued ∨ q.state = .waitingChain)
      ∨ s.owner? r.drive = some q) := by
  unfold State.barred
  rw [Bool.or_eq_true, List.any_eq_true]
  simp only [Bool.and_eq_true, Bool.or_eq_true, decide_eq_true_eq]
  constructor
  · rintro (⟨q, hq, ⟨⟨hd, hrid⟩, hst⟩, hbars⟩ | hbars)
    · exact ⟨q, hbars, .inl ⟨hq, hd, hrid, hst⟩⟩
    · split at hbars
      · next q ho => exact ⟨q, hbars, .inr ho⟩
      · cases hbars
  · rintro ⟨q, hbars, ⟨hq, hd, hrid, hst⟩ | ho⟩
    · exact .inl ⟨q, hq, ⟨⟨hd, hrid⟩, hst⟩, hbars⟩
    · rw [ho]
      exact .inr hbars

/-! #### The first of the least (R80) -/

theorem leastBy_eq_none {α : Type} {key : α → Int} {l : List α} : leastBy key l = none ↔ l = [] := by
  cases l with
  | nil => simp [leastBy]
  | cons a l =>
    rw [leastBy]
    cases leastBy key l with
    | none => simp
    | some b => by_cases h : key b < key a <;> simp [h]

theorem leastBy_eq_some {α : Type} {key : α → Int} {l : List α} {a : α} (h : leastBy key l = some a) :
    ∃ older younger, l = older ++ a :: younger ∧ (∀ b ∈ older, key a < key b) ∧ ∀ b ∈ younger, key a ≤ key b := by
  induction l generalizing a with
  | nil => cases h
  | cons c l ih =>
    rw [leastBy] at h
    cases hl : leastBy key l with
    | none =>
      rw [hl] at h
      obtain rfl := Option.some.inj h
      exact ⟨[], l, rfl, by simp, by simp [leastBy_eq_none.1 hl]⟩
    | some b =>
      obtain ⟨older, younger, rfl, holder, hyounger⟩ := ih hl
      rw [hl] at h
      dsimp only at h
      split at h
      · next hlt =>
        obtain rfl := Option.some.inj h
        exact ⟨c :: older, younger, rfl, by simpa using ⟨hlt, holder⟩, hyounger⟩
      · next hle =>
        obtain rfl := Option.some.inj h
        refine ⟨[], older ++ b :: younger, rfl, by simp, fun x hx => ?_⟩
        rcases List.mem_append.1 hx with hx | hx
        · have := holder x hx
          omega
        · rcases List.mem_cons.1 hx with rfl | hx
          · omega
          · have := hyounger x hx
            omega

/-! #### The segment waiters and eligibility (R79, R100) -/

/-- An overdue segment waiter of the string (R79). -/
def waitsOverdue (s : State) (x : Request) : Prop :=
  (∃ d : Drive, (s.drive d).armFree = true ∧ x ∈ s.queue d) ∧ x.kind.isData = true ∧ s.barred x = false
    ∧ s.settings.overduePasses ≤ x.passes

theorem mem_segmentWaiters : x ∈ s.segmentWaiters d ↔
    (s.drive d).armFree = true ∧ x ∈ s.queue d ∧ x.kind.isData = true ∧ s.barred x = false := by
  unfold State.segmentWaiters
  split
  · next h => simp [h, List.mem_filter]
  · next h => simp [h]

theorem mem_overdueWaiters : x ∈ s.overdueWaiters ↔ waitsOverdue s x := by
  simp only [State.overdueWaiters, List.mem_flatMap, List.mem_filter, mem_segmentWaiters, State.overdue, decide_eq_true_eq]
  constructor
  · rintro ⟨d, -, ⟨hfree, hq, hdata, hbar⟩, hover⟩
    exact ⟨⟨d, hfree, hq⟩, hdata, hbar, hover⟩
  · rintro ⟨⟨d, hfree, hq⟩, hdata, hbar, hover⟩
    exact ⟨d, mem_allDrives d, ⟨hfree, hq, hdata, hbar⟩, hover⟩

theorem oldestOverdue_eq_none : s.oldestOverdue = none ↔ ∀ x, ¬waitsOverdue s x := by
  rw [State.oldestOverdue, leastBy_eq_none, List.eq_nil_iff_forall_not_mem]
  simp only [mem_overdueWaiters]

theorem oldestOverdue_eq_some (h : s.oldestOverdue = some x) : waitsOverdue s x ∧ ∀ y, waitsOverdue s y → x.rid ≤ y.rid := by
  obtain ⟨older, younger, hl, holder, hyounger⟩ := leastBy_eq_some h
  refine ⟨mem_overdueWaiters.1 (by simp [hl]), fun y hy => ?_⟩
  have hmem := mem_overdueWaiters.2 hy
  rw [hl, List.mem_append, List.mem_cons] at hmem
  rcases hmem with hy | rfl | hy
  · exact Int.ofNat_le.1 (holder y hy).le
  · exact le_rfl
  · exact Int.ofNat_le.1 (hyounger y hy)

theorem mem_freeSegments {i : Fin 8} : i ∈ s.freeSegments ↔ s.segments[i] = none := by
  simp [State.freeSegments, List.mem_filter, mem_allDrives]

theorem two_freeSegments_iff : 2 ≤ s.freeSegments.length ↔ ∃ i j : Fin 8, i ≠ j ∧ s.segments[i] = none ∧ s.segments[j] = none := by
  have hnodup : s.freeSegments.Nodup := nodup_allDrives.filter _
  rw [← List.toFinset_card_of_nodup hnodup]
  refine Finset.one_lt_card.trans ?_
  simp only [List.mem_toFinset, mem_freeSegments]
  constructor
  · exact fun ⟨i, hi, j, hj, hne⟩ => ⟨i, j, hne, hi, hj⟩
  · exact fun ⟨i, j, hne, hi, hj⟩ => ⟨i, hi, j, hj, hne⟩

theorem wouldGrant_iff : s.wouldGrant r = true ↔
    (∃ i j : Fin 8, i ≠ j ∧ s.segments[i] = none ∧ s.segments[j] = none)
      ∧ ((∀ x, ¬waitsOverdue s x) ∨ ∃ x, waitsOverdue s x ∧ x.rid = r.rid ∧ ∀ y, waitsOverdue s y → x.rid ≤ y.rid) := by
  rw [State.wouldGrant, Bool.and_eq_true, decide_eq_true_eq, two_freeSegments_iff]
  refine and_congr_right fun _ => ?_
  cases hold : s.oldestOverdue with
  | none => simp [oldestOverdue_eq_none.1 hold]
  | some w =>
    obtain ⟨hw, hleast⟩ := oldestOverdue_eq_some hold
    rw [decide_eq_true_eq]
    constructor
    · exact fun hid => .inr ⟨w, hw, hid, hleast⟩
    · rintro (hnone | ⟨x, hx, hid, hmin⟩)
      · exact absurd hw (hnone w)
      · exact (Nat.le_antisymm (hleast x hx) (hmin w hw)).trans hid

theorem takesBuffer_iff {k : Kind} : k.takesBuffer = true ↔ k = .spareTrack ∨ k = .returnAlternate := by
  simp [Kind.takesBuffer]

theorem eligible_iff : s.eligible r = true ↔ s.barred r = false ∧ (r.kind.isData = true → s.wouldGrant r = true)
    ∧ (r.kind = .spareTrack ∨ r.kind = .returnAlternate → s.buffer.holder = none) := by
  rw [State.eligible, Bool.and_eq_true, Bool.not_eq_true']
  refine and_congr_right fun _ => ?_
  rw [← takesBuffer_iff]
  by_cases hdata : r.kind.isData = true
  · have hnot : r.kind.takesBuffer = false := by
      revert hdata
      cases r.kind <;> decide
    simp [hdata, hnot]
  · by_cases hbuf : r.kind.takesBuffer = true <;> simp [hdata, hbuf]

/-! #### The choice and the decision (R76, R77, R80) -/

theorem choose_eq_none {rs : List Request} : s.choose rs = none ↔ rs = [] := by
  unfold State.choose
  split
  · next r h => simp [List.ne_nil_of_mem (List.mem_of_find?_eq_some h)]
  · split
    · next r h => simp [List.ne_nil_of_mem (List.mem_of_find?_eq_some h)]
    · exact leastBy_eq_none

/-- The choice: the first with chain precedence, else the first overdue, else the first of the least score. -/
theorem choose_eq_some {rs : List Request} (h : s.choose rs = some r) : ∃ older younger, rs = older ++ r :: younger
    ∧ (r.chainPrecedence = true ∧ (∀ q ∈ older, q.chainPrecedence = false)
      ∨ (∀ q ∈ older ++ r :: younger, q.chainPrecedence = false)
        ∧ (s.settings.overduePasses ≤ r.passes ∧ (∀ q ∈ older, q.passes < s.settings.overduePasses)
          ∨ (∀ q ∈ older ++ r :: younger, q.passes < s.settings.overduePasses)
            ∧ (∀ q ∈ older, s.score r < s.score q) ∧ ∀ q ∈ younger, s.score r ≤ s.score q)) := by
  unfold State.choose at h
  split at h
  · next r' hfind =>
    obtain rfl := Option.some.inj h
    obtain ⟨hchain, older, younger, rfl, holder⟩ := List.find?_eq_some_iff_append.1 hfind
    exact ⟨older, younger, rfl, .inl ⟨hchain, by simpa using holder⟩⟩
  · next hnochain =>
    have hchain : ∀ q ∈ rs, q.chainPrecedence = false := by simpa using hnochain
    split at h
    · next r' hfind =>
      obtain rfl := Option.some.inj h
      obtain ⟨hover, older, younger, rfl, holder⟩ := List.find?_eq_some_iff_append.1 hfind
      simp only [State.overdue, decide_eq_true_eq, Bool.not_eq_true', decide_eq_false_iff_not, not_le] at hover holder
      exact ⟨older, younger, rfl, .inr ⟨hchain, .inl ⟨hover, holder⟩⟩⟩
    · next hnone =>
      have hover : ∀ q ∈ rs, q.passes < s.settings.overduePasses := by simpa [State.overdue] using hnone
      obtain ⟨older, younger, rfl, holder, hyounger⟩ := leastBy_eq_some h
      exact ⟨older, younger, rfl, .inr ⟨hchain, .inr ⟨hover, holder, hyounger⟩⟩⟩

theorem decision?_eq_some (h : s.decision? d = some r) : (s.drive d).armFree = true
    ∧ s.choose ((s.queue d).filter s.eligible) = some r := by
  unfold State.decision? at h
  split at h
  · next hfree => exact ⟨hfree, h⟩
  · cases h

theorem decision?_eq_none : s.decision? d = none ↔ (s.drive d).armFree = false ∨ ∀ q ∈ s.queue d, s.eligible q = false := by
  unfold State.decision?
  split
  · next hfree => simp [hfree, choose_eq_none, List.filter_eq_nil_iff]
  · next hbusy => simp [Bool.eq_false_of_not_eq_true hbusy]

/-! #### The passes of a decision (R81) -/

/-- A request as the decision for the request of place `n` at drive `d` leaves it (R81). -/
def passedOver (d : Drive) (n : Nat) (q : Request) : Request :=
  if q.drive = d ∧ q.state = .queued ∧ q.rid ≠ n then { q with passes := min 15 (q.passes + 1) } else q

theorem countPasses_eq (s : State) (d : Drive) (n : Nat) : s.countPasses d n =
    { s with table := s.table.map (passedOver d n) }.onDrive d fun dr =>
      { dr with labelUpdate := dr.labelUpdate.map (passedOver d n) } := rfl

theorem countPasses_drive_same (s : State) (d : Drive) (n : Nat) : (s.countPasses d n).drive d =
    { s.drive d with labelUpdate := (s.drive d).labelUpdate.map (passedOver d n) } := by
  rw [countPasses_eq, drive_onDrive_same]
  rfl

theorem countPasses_drive_other {e : Drive} (h : e ≠ d) : (s.countPasses d n).drive e = s.drive e := by
  rw [countPasses_eq, drive_onDrive_other _ h]
  rfl

end

/-- Settles O56: the estimate's wait, the membership lemmas of the queue and the segment waiters, and what the choice and the
passes come to. -/
theorem estimateReachesSector : Obligations.EstimateReachesSector := by
  refine ⟨fun angle cur target sector _ h => transferEstimate_reaches h,
    fun s r c => ⟨fun sec h => score_of_sector h, score_of_cylinder⟩, fun s d r h => ?_, fun s d => decision?_eq_none,
    fun s d => ⟨armFree_iff, fun q => mem_queue⟩, fun s r => ⟨?_, ?_⟩, fun s d n => ?_⟩
  · obtain ⟨hfree, hchoose⟩ := decision?_eq_some h
    obtain ⟨older, younger, hsplit, hrest⟩ := choose_eq_some hchoose
    have hmem : r ∈ (s.queue d).filter s.eligible := by simp [hsplit]
    obtain ⟨hqueue, helig⟩ := List.mem_filter.1 hmem
    exact ⟨hfree, hqueue, (eligible_iff.1 helig).1, helig, older, younger, hsplit, hrest⟩
  · rw [barred_iff]
    simp only [bars_iff, and_assoc]
  · rw [eligible_iff, wouldGrant_iff]
    rfl
  · refine ⟨rfl, rfl, fun x hx => countPasses_drive_other hx, ?_, fun hnone => ?_, fun q hq hd => ?_⟩
    · rw [countPasses_drive_same]
    · rw [countPasses_drive_same, hnone]
      rfl
    · rw [countPasses_drive_same, hq]
      simp [passedOver, hd]

end Sys2Proof.Proofs

/-! ### A request chosen in its arrival event (R50, R73, R76, R77, R81, R82) -/

namespace Sys2Proof.Proofs
open Sys2Proof Sys2Proof.Machine Sys2Proof.Laws

section
variable {s t : State} {p : Port} {d e : Drive} {k : Kind} {f : RequestFrame} {o : Operands} {c : Instr}
  {r q q' x : Request} {n : Nat}

/-- An arm-using request in no chain arrives for a READY drive whose arm is free and passes every check; nothing waits, and its
place of the arrival order is new. -/
structure ArrivesFree (s : State) (k : Kind) (p : Port) (f : RequestFrame) (c : Instr) (d : Drive) (o : Operands) : Prop where
  command : armCommand k p f = some c
  passes : s.passes k p f d o
  unchained : (s.port p).marker = none
  free : (s.drive d).armFree = true
  quiet : s.quiet
  fresh : s.fresh

/-! #### The state with the request entered -/

/-- Noting a class changes recovered counts alone (R148). -/
theorem noteClass_drive (s : State) (r : Request) (e : Drive) : ∃ v, (s.noteClass r).drive e = { s.drive e with recCounts := v } := by
  by_cases h : r.kind.isData = true
  · rw [noteClass_data h]
    by_cases he : e = r.drive
    · rw [he, drive_onDrive_same]
      exact ⟨_, rfl⟩
    · rw [drive_onDrive_other _ he]
      exact ⟨(s.drive e).recCounts, rfl⟩
  · rw [noteClass_other (Bool.eq_false_of_not_eq_true h)]
    exact ⟨(s.drive e).recCounts, rfl⟩

theorem noteClass_frames (s : State) (r : Request) : s.noteClass r = { s with drives := (s.noteClass r).drives } := by
  by_cases h : r.kind.isData = true
  · rw [noteClass_data h]
    rfl
  · rw [noteClass_other (Bool.eq_false_of_not_eq_true h)]

theorem entered_eq (s : State) (p : Port) (f : RequestFrame) (r q : Request) : entered s p f r q =
    { s.onPort p fun pr =>
        { pr with marker := if f.chain then some { member := some r.rid, drive := r.drive, standing := .unended } else none }
      with table := s.table ++ [q], nextOrder := s.nextOrder + 1, drives := (s.noteClass r).drives } := by
  rw [entered, noteClass_frames]
  rfl

theorem entered_table : (entered s p f r q).table = s.table ++ [q] := rfl

theorem entered_drive (e : Drive) : (entered s p f r q).drive e = (s.noteClass r).drive e := rfl

theorem entered_labelUpdate (e : Drive) : ((entered s p f r q).drive e).labelUpdate = (s.drive e).labelUpdate := by
  obtain ⟨v, hv⟩ := noteClass_drive s r e
  rw [entered_drive, hv]

theorem entered_armFree (e : Drive) : ((entered s p f r q).drive e).armFree = (s.drive e).armFree := noteClass_armFree s r e

/-- Replacing the record of the entered request, whose place is new, replaces the last entry. -/
theorem entered_withRequest (hf : ∀ x ∈ s.table, x.rid ≠ q'.rid) (hid : q.rid = q'.rid) :
    (entered s p f r q).withRequest q' = entered s p f r q' := by
  have hold : (s.table.map fun x => if x.rid = q'.rid then q' else x) = s.table :=
    (List.map_congr_left fun x hx => if_neg (hf x hx)).trans (List.map_id _)
  have htable : ((s.table ++ [q]).map fun x => if x.rid = q'.rid then q' else x) = s.table ++ [q'] := by
    rw [List.map_append, hold, List.map_singleton, if_pos hid]
  rw [State.withRequest, entered_table, htable]
  rfl

theorem queue_of_quiet (h : s.quiet) (he : (s.drive e).armFree = true) : s.queue e = [] := by
  obtain ⟨⟨-, -, hqueue⟩, -⟩ := h
  exact hqueue e he

/-- Of the requests queued for a free arm, the one entered is the only one (R73). -/
theorem eq_of_mem_queue_entered (hq : s.quiet) (he : (s.drive e).armFree = true) (hx : x ∈ (entered s p f r q).queue e) : x = q := by
  obtain ⟨htable, hlabel⟩ := queue_eq_nil.1 (queue_of_quiet hq he)
  obtain ⟨hst, ⟨hmem, hd⟩ | hu⟩ := mem_queue.1 hx
  · rcases List.mem_append.1 hmem with hold | hnew
    · exact absurd hst (htable x hold hd)
    · exact List.mem_singleton.1 hnew
  · rw [entered_labelUpdate] at hu
    exact absurd hst (hlabel x hu)

theorem queue_entered (hq : s.queue r.drive = []) (hst : r.state = .queued) : (entered s p f r r).queue r.drive = [r] := by
  obtain ⟨htable, hlabel⟩ := queue_eq_nil.1 hq
  have hold : (s.table.filter fun x => decide (x.drive = r.drive) && decide (x.state = .queued)) = [] :=
    List.filter_eq_nil_iff.2 fun x hx => by simpa using htable x hx
  unfold State.queue
  rw [entered_table, List.filter_append, hold, entered_labelUpdate]
  cases hl : (s.drive r.drive).labelUpdate with
  | none => simp [hst]
  | some u => simp [hst, hlabel u hl]

theorem owner?_of_armFree (h : (s.drive d).armFree = true) : s.owner? d = none := by
  obtain ⟨-, -, hown⟩ := armFree_iff.1 h
  simp only [State.owner?, hown]

/-- The entered request is barred by none that did not bar it before (R78). -/
theorem barred_entered (hfree : (s.drive r.drive).armFree = true) (h : s.barred r = false) :
    (entered s p f r r).barred r = false := by
  rw [Bool.eq_false_iff] at h ⊢
  refine fun hbarred => h (barred_iff.2 ?_)
  obtain ⟨q, hbars, ⟨hmem, hd, hrid, hst⟩ | ho⟩ := barred_iff.1 hbarred
  · rcases List.mem_append.1 hmem with hold | hnew
    · exact ⟨q, hbars, .inl ⟨hold, hd, hrid, hst⟩⟩
    · rw [List.mem_singleton.1 hnew] at hrid
      exact absurd hrid (Nat.lt_irrefl _)
  · rw [owner?_of_armFree ((entered_armFree _).trans hfree)] at ho
    cases ho

/-- The entered request is eligible when it is not barred, a data request finds two segments free, and a request for the sparing
buffer finds it unheld: no other segment waiter stands in a quiet string (R79). -/
theorem eligible_entered (hq : s.quiet) (hfree : (s.drive r.drive).armFree = true) (hbar : s.barred r = false)
    (hseg : r.kind.isData = true → 2 ≤ s.freeSegments.length)
    (hbuf : r.kind = .spareTrack ∨ r.kind = .returnAlternate → s.buffer.holder = none) :
    (entered s p f r r).eligible r = true := by
  have hwaits : ∀ x, waitsOverdue (entered s p f r r) x → x = r := fun x ⟨⟨e, he, hx⟩, _⟩ =>
    eq_of_mem_queue_entered hq ((entered_armFree e).symm.trans he) hx
  have hsegments : (entered s p f r r).segments = s.segments := by
    rw [entered_eq]
    rfl
  have hbuffer : (entered s p f r r).buffer = s.buffer := by
    rw [entered_eq]
    rfl
  refine eligible_iff.2 ⟨barred_entered hfree hbar, fun hdata => wouldGrant_iff.2 ⟨?_, ?_⟩, ?_⟩
  · rw [hsegments]
    exact two_freeSegments_iff.1 (hseg hdata)
  · by_cases hw : waitsOverdue (entered s p f r r) r
    · exact .inr ⟨r, hw, rfl, fun y hy => by rw [hwaits y hy]⟩
    · exact .inl fun x hx => hw (hwaits x hx ▸ hx)
  · rw [hbuffer]
    exact hbuf

theorem choose_singleton : s.choose [r] = some r := by
  cases h : s.choose [r] with
  | none => cases choose_eq_none.1 h
  | some x =>
    obtain ⟨older, younger, hsplit, -⟩ := choose_eq_some h
    have hx : x ∈ [r] := by simp [hsplit]
    rw [List.mem_singleton.1 hx]

/-- The test of its drive chooses the entered request, if it is eligible (R76, R80). -/
theorem decision?_entered (hq : s.quiet) (hfree : (s.drive r.drive).armFree = true) (hst : r.state = .queued)
    (hel : (entered s p f r r).eligible r = true) : (entered s p f r r).decision? r.drive = some r := by
  rw [State.decision?, entered_armFree, if_pos hfree, queue_entered (queue_of_quiet hq hfree) hst, List.filter_cons_of_pos hel,
    List.filter_nil, choose_singleton]

/-! #### The choice carried out (R77, R81) -/

/-- A decision for the only request queued passes over nobody (R81). -/
theorem countPasses_alone (h : ∀ q ∈ s.queue d, q.rid = n) : s.countPasses d n = s := by
  have hsame : ∀ q : Request, (q ∈ s.table ∨ (s.drive d).labelUpdate = some q) → passedOver d n q = q := fun q hq => by
    refine if_neg fun ⟨hd, hst, hne⟩ => hne (h q (mem_queue.2 ⟨hst, ?_⟩))
    exact hq.imp_left fun hmem => ⟨hmem, hd⟩
  have htable : s.table.map (passedOver d n) = s.table :=
    (List.map_congr_left fun q hq => hsame q (.inl hq)).trans (List.map_id _)
  have hlabel : (s.drive d).labelUpdate.map (passedOver d n) = (s.drive d).labelUpdate := by
    cases hu : (s.drive d).labelUpdate with
    | none => rfl
    | some u => exact congrArg some (hsame u (.inr hu))
  rw [countPasses_eq, htable]
  refine onDrive_id ?_
  show { s.drive d with labelUpdate := (s.drive d).labelUpdate.map (passedOver d n) } = s.drive d
  rw [hlabel]

/-- A request as it is chosen, and a drive's record with its arm owned by the request of that place (R77). -/
def chosen (r : Request) : Request := { r with reachedArm := true, state := .positioned }

def owned (n : Nat) (dr : DriveRec) : DriveRec := { dr with owner := some n, retryMark := false, arm := .onCylinder }

/-- The state with the entered request, its record now `q`, the owner of its drive's arm. -/
def atChoice (s : State) (p : Port) (f : RequestFrame) (r q : Request) : State :=
  (entered s p f r q).onDrive r.drive (owned r.rid)

theorem atChoice_withRequest (hf : ∀ x ∈ s.table, x.rid ≠ q'.rid) (hid : q.rid = q'.rid) :
    (atChoice s p f r q).withRequest q' = atChoice s p f r q' :=
  congrArg (·.onDrive r.drive (owned r.rid)) (entered_withRequest hf hid)

theorem decideArm_entered (hq : s.quiet) (hfree : (s.drive r.drive).armFree = true) (hk : r.kind ≠ .labelUpdate)
    (hf : ∀ x ∈ s.table, x.rid ≠ r.rid) :
    (entered s p f r r).decideArm r.drive r = (atChoice s p f r (chosen r)).firstState (chosen r) := by
  have halone : (entered s p f r r).countPasses r.drive r.rid = entered s p f r r :=
    countPasses_alone fun x hx => by rw [eq_of_mem_queue_entered hq hfree hx]
  have hput : (entered s p f r r).putRequest (chosen r) = entered s p f r (chosen r) :=
    (putRequest_table (r := chosen r) hk).trans (entered_withRequest (q' := chosen r) hf rfl)
  unfold State.decideArm
  rw [halone]
  dsimp only
  rw [← chosen, hput]
  rfl

/-- Where nothing follows from the first state of the chosen request, that state ends its arrival event (R50, R77). -/
theorem exec_chosen (h : ArrivesFree s k p f c d o) (hr : s.newRequest p d k f o = r)
    (hcount : k.isData = true → r.count ≠ 0) (hel : (entered s p f r r).eligible r = true)
    (ht : (atChoice s p f r (chosen r)).firstState (chosen r) = t) (htq : t.quiet) : exec c s = .next t.flush := by
  subst hr
  obtain ⟨hreq, harm⟩ := requestCommand_of_arm h.command
  have htable : k.tableEntry = true := by simp [Kind.tableEntry, harm]
  have hclear : k ≠ .clearFault := by rintro rfl; cases harm
  have hlabel : k ≠ .labelUpdate := by rintro rfl; cases h.command
  have hopen : ∀ m, (s.port p).marker = some m → m.standing = .endedDone := fun m e => by rw [h.unchained] at e; cases e
  rw [exec_accepted hreq htable hclear h.passes, acceptEntry_opens hopen, if_neg fun ⟨hk, e⟩ => hcount hk e, if_pos harm,
    h.unchained]
  generalize hr : s.newRequest p d k f o = r at *
  have hrd : r.drive = d := by rw [← hr]; rfl
  have hrs : r.state = .queued := by rw [← hr]; rfl
  have hrk : r.kind ≠ .labelUpdate := by rw [← hr]; exact hlabel
  have hrid : ∀ x ∈ s.table, x.rid ≠ r.rid := by rw [← hr]; exact h.fresh.1
  have hrc : { r with chainPrecedence := false } = r := by rw [← hr]; rfl
  have hfree : (s.drive r.drive).armFree = true := hrd ▸ h.free
  have hjoin : (entered s p f r r).testAfterJoin r.drive = t := by
    rw [State.testAfterJoin, decision?_entered h.quiet hfree hrs hel]
    simp only [State.decideIn, decideArm_entered h.quiet hfree hrk hrid, ht]
    exact settleWith_quiet htq _
  show Host.Outcome.next (((s.noteClass r).enqueue p f { r with chainPrecedence := false })) = _
  rw [hrc, State.enqueue, enter_eq_entered rfl rfl, hjoin]

/-! #### What stands around the chosen request -/

theorem entry_atChoice (hf : ∀ x ∈ s.table, x.rid ≠ q.rid) (hk : q.kind ≠ .labelUpdate) : (atChoice s p f r q).entry q := by
  refine ⟨List.mem_append_right _ (List.mem_singleton_self q), fun x hx hid => ?_, hk⟩
  rcases List.mem_append.1 hx with hold | hnew
  · exact absurd hid (hf x hold)
  · exact List.mem_singleton.1 hnew

theorem pathless_atChoice (h : s.pathless n) : (atChoice s p f r q).pathless n := by
  rw [atChoice, entered_eq]
  exact h

theorem atChoice_drive : (atChoice s p f r q).drive r.drive = owned r.rid ((s.noteClass r).drive r.drive) := by
  rw [atChoice, drive_onDrive_same]
  rfl

/-- A request added that neither is queued nor a SYNCHRONIZE, its drive's arm owned, lets nothing follow where nothing
followed. -/
theorem quiet_added (hs : s.quiet) (htable : t.table = s.table ++ [q]) {g : DriveRec → DriveRec}
    (hdrives : t.drives = ((s.noteClass r).onDrive d g).drives)
    (hg : ∀ dr, (g dr).labelUpdate = dr.labelUpdate ∧ (g dr).state = dr.state ∧ (g dr).packSeated = dr.packSeated
      ∧ (g dr).doorClosed = dr.doorClosed ∧ (g dr).owner ≠ none)
    (hq : q.state ≠ .queued) (hk : q.kind ≠ .synchronize) (hwait : t.buffer.waiters = s.buffer.waiters)
    (hgate : t.gateOpen = s.gateOpen) (hlist : t.startList = s.startList) : t.quiet := by
  have hdrive : ∀ e, t.drive e = ((s.noteClass r).onDrive d g).drive e := fun e => by rw [State.drive, hdrives]; rfl
  have hkeeps : ∀ e, (t.drive e).labelUpdate = (s.drive e).labelUpdate ∧ (t.drive e).state = (s.drive e).state
      ∧ (t.drive e).packSeated = (s.drive e).packSeated ∧ (t.drive e).doorClosed = (s.drive e).doorClosed
      ∧ ((t.drive e).armFree = true → (s.drive e).armFree = true) := fun e => by
    obtain ⟨v, hv⟩ := noteClass_drive s r e
    rw [hdrive]
    by_cases he : e = d
    · subst he
      obtain ⟨h1, h2, h3, h4, h5⟩ := hg ((s.noteClass r).drive e)
      rw [drive_onDrive_same]
      rw [hv] at h1 h2 h3 h4
      rw [hv] at h5 ⊢
      refine ⟨h1, h2, h3, h4, fun hfree => ?_⟩
      obtain ⟨-, -, hown⟩ := armFree_iff.1 hfree
      exact absurd hown h5
    · rw [drive_onDrive_other _ he, hv]
      exact ⟨rfl, rfl, rfl, rfl, id⟩
  obtain ⟨⟨hnone, hsettled, hqueue⟩, hstart⟩ := hs
  refine ⟨⟨hwait.trans hnone, List.filter_eq_nil_iff.2 fun x hx hxs => ?_, fun e he => ?_⟩, ?_⟩
  · simp only [Bool.and_eq_true, decide_eq_true_eq, List.isEmpty_iff] at hxs
    obtain ⟨⟨hsync, hcontrol⟩, hawaits⟩ := hxs
    rw [htable] at hx
    rcases List.mem_append.1 hx with hold | hnew
    · have hbefore : s.awaited x = [] := by
        rw [State.awaited, htable, List.filter_append] at hawaits
        exact (List.append_eq_nil_iff.1 hawaits).1
      exact List.filter_eq_nil_iff.1 hsettled x hold (by simp [hsync, hcontrol, hbefore])
    · exact hk (List.mem_singleton.1 hnew ▸ hsync)
  · obtain ⟨hl, -, -, -, hfree⟩ := hkeeps e
    obtain ⟨hold, hlabel⟩ := queue_eq_nil.1 (hqueue e (hfree he))
    refine queue_eq_nil.2 ⟨fun x hx hd => ?_, fun u hu => hlabel u (hl ▸ hu)⟩
    rw [htable] at hx
    rcases List.mem_append.1 hx with hmem | hnew
    · exact hold x hmem hd
    · exact List.mem_singleton.1 hnew ▸ hq
  · refine (startable_congr hgate hlist fun e => ?_).trans hstart
    obtain ⟨-, h2, h3, h4, -⟩ := hkeeps e
    exact ⟨h2, h3, h4⟩

end

end Sys2Proof.Proofs

/-! ### The first state of a chosen request: its arm sent (R27, R28, R77, R82, R87, R88) -/

namespace Sys2Proof.Proofs
open Sys2Proof Sys2Proof.Machine Sys2Proof.Laws

section
variable {s : State} {p : Port} {d : Drive} {k : Kind} {f : RequestFrame} {o : Operands} {c : Instr} {r q : Request}
  {n cyl : Nat}
  {dr : DriveRec} {g : Request → Request}

/-! #### The arm sent for a request that holds no path -/

theorem aim_pathless (h : s.entry r) (hpath : s.pathless r.rid) (hk : r.kind ≠ .position) : s.aim r.rid =
    (s.withRequest (if r.op.isSome = true then r else r.sentBy (s.drive r.drive) (cylOf (s.leg r).track))).onDrive r.drive
      fun dr => dr.sentTo (cylOf (s.leg r).track) := by
  unfold State.aim
  rw [request?_entry h]
  exact seekTo_pathless h hpath (.inr hk)

/-- The arm sent for a request whose record has just been changed. -/
theorem aim_onRequest (h : s.entry r) (hpath : s.pathless r.rid) (hid : (g r).rid = r.rid) (hkind : (g r).kind = r.kind)
    (hk : r.kind ≠ .position) : (s.onRequest r.rid g).aim r.rid =
      (s.withRequest (if (g r).op.isSome = true then g r
        else (g r).sentBy (s.drive (g r).drive) (cylOf (s.leg (g r)).track))).onDrive (g r).drive
          fun dr => dr.sentTo (cylOf (s.leg (g r)).track) := by
  have hlabel : (g r).kind ≠ .labelUpdate := hkind ▸ h.2.2
  have hput : s.onRequest r.rid g = s.withRequest (g r) := (onRequest_some (request?_entry h) g).trans (putRequest_table hlabel)
  have haim := aim_pathless (entry_withRequest h hid hlabel) (hid.symm ▸ hpath) (hkind ▸ hk)
  rw [hid] at haim
  rw [hput, haim]
  refine congrArg (fun v : State => v.onDrive (g r).drive fun dr => dr.sentTo (cylOf (s.leg (g r)).track)) ?_
  refine withRequest_withRequest ?_
  split <;> rfl

theorem recalibrateFor_pathless (h : s.entry r) (hpath : s.pathless r.rid) (hop : r.op = none) (after : AfterHome) :
    s.recalibrateFor d r.rid after = (s.withRequest { r with state := .recalibrating }).onDrive d fun dr =>
      { dr with
        tgtCyl := 0, arm := .recalibrating, recalTimer := some 500000, seekTimer := none, afterHome := after } := by
  unfold State.recalibrateFor
  have hin : r.inState .recalibrating = { r with state := .recalibrating } := by simp [Request.inState, hop]
  rw [leavePaths_pathless hpath]
  dsimp only
  rw [onRequest_some ((request?_onDrive rfl _).trans (request?_entry h)), hin,
    putRequest_table (r := { r with state := .recalibrating }) h.2.2]
  rfl

/-! #### The record of the drive, and of the request, as the arm is sent -/

/-- A drive's record with its owner's arm under way to a cylinder (R27). -/
def sentAway (n cyl : Nat) (dr : DriveRec) : DriveRec :=
  { dr with owner := some n, retryMark := false, arm := .seeking, tgtCyl := cyl, seekTimer := some 80000 }

theorem owned_sentTo_away (h : dr.curCyl ≠ cyl) : (owned n dr).sentTo cyl = sentAway n cyl dr := if_neg h

theorem owned_sentTo_there (h : dr.curCyl = cyl) : (owned n dr).sentTo cyl = owned n dr := if_pos h

theorem sentBy_away (h : dr.curCyl ≠ cyl) : r.sentBy dr cyl = { r with state := .seeking } := by rw [Request.sentBy, if_neg h]

theorem noteClass_curCyl (s : State) (r : Request) (e : Drive) : ((s.noteClass r).drive e).curCyl = (s.drive e).curCyl := by
  obtain ⟨v, hv⟩ := noteClass_drive s r e
  rw [hv]

theorem noteClass_map (s : State) (r : Request) (e : Drive) : ((s.noteClass r).drive e).map = (s.drive e).map := by
  obtain ⟨v, hv⟩ := noteClass_drive s r e
  rw [hv]

theorem atChoice_curCyl : ((atChoice s p f r q).drive r.drive).curCyl = (s.drive r.drive).curCyl := by
  rw [atChoice_drive]
  exact noteClass_curCyl s r r.drive

theorem atChoice_map : ((atChoice s p f r q).drive r.drive).map = (s.drive r.drive).map := by
  rw [atChoice_drive]
  exact noteClass_map s r r.drive

/-- The chosen request's arm sent to another cylinder. -/
theorem atChoice_sent_away (h : (s.drive r.drive).curCyl ≠ cyl) : ((atChoice s p f r q).onDrive r.drive fun dr => dr.sentTo cyl) =
    (entered s p f r q).onDrive r.drive (sentAway r.rid cyl) :=
  (onDrive_onDrive _ _).trans (onDrive_congr (owned_sentTo_away (noteClass_curCyl s r r.drive ▸ h)))

/-- A request whose place no entry, path or preference names, and that is no label update and has no operation. -/
structure Newcomer (s : State) (r : Request) : Prop where
  alone : ∀ x ∈ s.table, x.rid ≠ r.rid
  pathless : s.pathless r.rid
  stored : r.kind ≠ .labelUpdate
  plain : r.op = none

theorem pathless_of_fresh (h : s.fresh) : s.pathless s.nextOrder := by
  obtain ⟨-, -, -, hpath0, hpath1, hpref, -⟩ := h
  exact ⟨hpath0, hpath1, hpref⟩

theorem newcomer_of_arrival (h : ArrivesFree s k p f c d o) : Newcomer s (s.newRequest p d k f o) where
  alone := h.fresh.1
  pathless := pathless_of_fresh h.fresh
  stored := by
    rintro rfl
    cases h.command
  plain := rfl

theorem Newcomer.entry (h : Newcomer s r) : (atChoice s p f r (chosen r)).entry (chosen r) :=
  entry_atChoice (q := chosen r) h.alone h.stored

theorem Newcomer.withRequest (h : Newcomer s r) (hid : q.rid = r.rid) :
    (atChoice s p f r (chosen r)).withRequest q = atChoice s p f r q :=
  atChoice_withRequest (fun x hx => hid.symm ▸ h.alone x hx) hid.symm

/-- The chosen request SEEKING for another cylinder (R27, R82). -/
theorem Newcomer.seekTo_away (h : Newcomer s r) (hc : (s.drive r.drive).curCyl ≠ cyl) :
    (atChoice s p f r (chosen r)).seekTo r.drive r.rid cyl =
      (entered s p f r { chosen r with state := .seeking }).onDrive r.drive (sentAway r.rid cyl) := by
  have haway : ((atChoice s p f r (chosen r)).drive r.drive).curCyl ≠ cyl := atChoice_curCyl.trans_ne hc
  have hop : ¬(chosen r).op.isSome = true := by simp [chosen, h.plain]
  have hsent := seekTo_pathless (d := r.drive) (h.entry (p := p) (f := f)) (pathless_atChoice h.pathless) (.inl haway.symm)
  rw [if_neg hop, sentBy_away haway, h.withRequest, atChoice_sent_away hc] at hsent
  · exact hsent
  · rfl

/-- The chosen request RECALIBRATING (R28, R82). -/
theorem Newcomer.recalibrateFor (h : Newcomer s r) (after : AfterHome) :
    (atChoice s p f r (chosen r)).recalibrateFor r.drive r.rid after =
      (entered s p f r { chosen r with state := .recalibrating }).onDrive r.drive fun dr =>
        { dr with
          owner := some r.rid, retryMark := false, tgtCyl := 0, arm := .recalibrating, recalTimer := some 500000
          seekTimer := none, afterHome := after } := by
  have hsent := recalibrateFor_pathless (d := r.drive) (h.entry (p := p) (f := f)) (pathless_atChoice h.pathless) h.plain after
  rw [h.withRequest] at hsent
  · exact hsent.trans (onDrive_onDrive _ _)
  · rfl

/-- The chosen request, its record changed, and the arm sent for its next block on another cylinder (R82). -/
theorem Newcomer.aim_away (h : Newcomer s r) (hid : (g (chosen r)).rid = r.rid) (hkind : (g (chosen r)).kind = r.kind)
    (hd : (g (chosen r)).drive = r.drive) (hk : r.kind ≠ .position)
    (hcyl : cylOf (legOf (s.drive r.drive).map.entries (g (chosen r))).track = cyl) (hc : (s.drive r.drive).curCyl ≠ cyl) :
    ((atChoice s p f r (chosen r)).onRequest r.rid g).aim r.rid =
      (entered s p f r (if (g (chosen r)).op.isSome = true then g (chosen r)
        else { g (chosen r) with state := .seeking })).onDrive r.drive (sentAway r.rid cyl) := by
  have haway : ((atChoice s p f r (chosen r)).drive r.drive).curCyl ≠ cyl := atChoice_curCyl.trans_ne hc
  have hleg : (atChoice s p f r (chosen r)).leg (g (chosen r)) = legOf (s.drive r.drive).map.entries (g (chosen r)) := by
    rw [State.leg, hd, atChoice_map]
  have hsent := aim_onRequest (g := g) (h.entry (p := p) (f := f)) (pathless_atChoice h.pathless) hid hkind hk
  rw [hleg, hcyl, hd, sentBy_away haway] at hsent
  rw [h.withRequest, atChoice_sent_away hc] at hsent
  · exact hsent
  · split <;> exact hid

/-! #### What follows -/

theorem entered_other (h : r.kind.isData = false) : entered s p f r q =
    { s.onPort p fun pr =>
        { pr with marker := if f.chain then some { member := some r.rid, drive := r.drive, standing := .unended } else none }
      with table := s.table ++ [q], nextOrder := s.nextOrder + 1 } := by
  rw [entered, noteClass_other h]

theorem entered_rest : (entered s p f r q).buffer = s.buffer ∧ (entered s p f r q).gateOpen = s.gateOpen
    ∧ (entered s p f r q).startList = s.startList := by
  rw [entered_eq]
  exact ⟨rfl, rfl, rfl⟩

/-- Nothing follows where the entered request owns its drive's arm. -/
theorem quiet_entered_owned {g : DriveRec → DriveRec} (hs : s.quiet)
    (hg : ∀ dr, (g dr).labelUpdate = dr.labelUpdate ∧ (g dr).state = dr.state ∧ (g dr).packSeated = dr.packSeated
      ∧ (g dr).doorClosed = dr.doorClosed ∧ (g dr).owner ≠ none)
    (hq : q.state ≠ .queued) (hk : q.kind ≠ .synchronize) : ((entered s p f r q).onDrive d g).quiet := by
  obtain ⟨hbuffer, hgate, hlist⟩ := entered_rest (s := s) (p := p) (f := f) (r := r) (q := q)
  exact quiet_added (r := r) (d := d) hs rfl rfl hg hq hk (congrArg SpareBuffer.waiters hbuffer) hgate hlist

theorem sentAway_keeps (n cyl : Nat) (dr : DriveRec) : (sentAway n cyl dr).labelUpdate = dr.labelUpdate
    ∧ (sentAway n cyl dr).state = dr.state ∧ (sentAway n cyl dr).packSeated = dr.packSeated
    ∧ (sentAway n cyl dr).doorClosed = dr.doorClosed ∧ (sentAway n cyl dr).owner ≠ none := ⟨rfl, rfl, rfl, rfl, nofun⟩

/-- A request without tracks is barred by none (R5, R78). -/
theorem barred_extentless (h : r.extent = none) : s.barred r = false := by
  rw [Bool.eq_false_iff]
  intro hbarred
  obtain ⟨q, hbars, -⟩ := barred_iff.1 hbarred
  obtain ⟨⟨a, b, x, y, -, hx, -⟩, -⟩ := bars_iff.1 hbars
  rw [h] at hx
  cases hx

theorem recalibrate_operands (h : checkFields .recalibrate f = .ok o) : o = .empty := by
  have hop : (if f.params.length = 0 then some Operands.empty else none) = some o := operands?_of_checkFields h
  split at hop
  · exact (Option.some.inj hop).symm
  · cases hop

end

/-- Settles O22: nothing bars a request without tracks, and its first state sends the arm. -/
theorem armKindChosen : Obligations.ArmKindChosen := by
  intro k p f c d o s hc hpass hm hfree hq hf r u
  have harrives : ArrivesFree s k p f c d o := ⟨hc, hpass, hm, hfree, hq, hf⟩
  have hnew : Newcomer s r := newcomer_of_arrival harrives
  have hu : k.isData = false → ∀ st, u st = entered s p f r { r with state := st, reachedArm := true } :=
    fun hk st => (entered_other (r := r) hk).symm
  have hel : k.isData = false → k.takesBuffer = false → r.extent = none → (entered s p f r r).eligible r = true :=
    fun hdata hbuf hext => eligible_entered hq hfree (barred_extentless hext)
      (fun h => absurd (hdata.symm.trans h) nofun) fun h => absurd (hbuf.symm.trans (takesBuffer_iff.2 h)) nofun
  refine ⟨fun cyl hk ho hne => ?_, fun hk => ?_⟩
  · subst hk ho
    rw [hu rfl]
    exact exec_chosen harrives rfl nofun (hel rfl rfl rfl) (hnew.seekTo_away hne.symm)
      (quiet_entered_owned hq (sentAway_keeps r.rid cyl) nofun nofun)
  · subst hk
    obtain ⟨⟨⟨-, hfields, -⟩, -⟩, -⟩ := hpass
    obtain rfl := recalibrate_operands hfields
    rw [hu rfl]
    exact exec_chosen harrives rfl nofun (hel rfl rfl rfl) (hnew.recalibrateFor .finish)
      (quiet_entered_owned hq (fun dr => ⟨rfl, rfl, rfl, rfl, nofun⟩) nofun nofun)

end Sys2Proof.Proofs

/-! ### A data request chosen: its segments and its data-wanted frames (R77, R82, R100 to R103) -/

namespace Sys2Proof.Proofs
open Sys2Proof Sys2Proof.Machine Sys2Proof.Laws

section
variable {s t : State} {p : Port} {d : Drive} {k : Kind} {f : RequestFrame} {o : Operands} {c : Instr} {r q : Request}
  {a b : Fin 8} {rest : List (Fin 8)} {cyl : Nat} {g : DriveRec → DriveRec}

/-- The data-wanted frames a request that takes host data gives at its choice (R103). -/
def wantedGiven (s : State) (r : Request) : State :=
  if r.takesData then (if 12 < r.count then (s.giveWanted r 0).giveWanted r 1 else s.giveWanted r 0) else s

theorem wantedGiven_frame (s : State) (r : Request) : ∃ ps, wantedGiven s r = { s with ports := ps } := by
  unfold wantedGiven
  split
  · split <;> exact ⟨_, rfl⟩
  · exact ⟨s.ports, rfl⟩

theorem wantedGiven_withRequest : (wantedGiven s r).withRequest q = wantedGiven (s.withRequest q) r := by
  unfold wantedGiven
  split
  · split <;> rfl
  · rfl

theorem wantedGiven_onDrive : (wantedGiven s r).onDrive d g = wantedGiven (s.onDrive d g) r := by
  unfold wantedGiven
  split
  · split <;> rfl
  · rfl

theorem quiet_wantedGiven (h : s.quiet) : (wantedGiven s r).quiet := by
  obtain ⟨ps, hps⟩ := wantedGiven_frame s r
  rw [hps]
  exact h

/-- The state with two segments held by a request (R100). -/
def segmentsHeld (s : State) (n : Nat) (a b : Fin 8) : State :=
  { s with segments := (s.segments.set a.val (some n) a.isLt).set b.val (some n) b.isLt }

theorem segmentsHeld_entered (n : Nat) (a b : Fin 8) : segmentsHeld (entered s p f r q) n a b =
    { entered s p f r q with segments := (s.segments.set a.val (some n) a.isLt).set b.val (some n) b.isLt } := by
  have hsegments : (entered s p f r q).segments = s.segments := by
    rw [entered_eq]
    rfl
  rw [segmentsHeld, hsegments]

theorem grantSegments_eq (hk : r.kind ≠ .labelUpdate) (h : s.freeSegments = a :: b :: rest) :
    s.grantSegments r = wantedGiven ((segmentsHeld s r.rid a b).withRequest (r.withSegments a b)) r := by
  unfold State.grantSegments
  rw [h]
  dsimp only
  rw [putRequest_table (r := r.withSegments a b) hk]
  rfl

theorem firstState_of_isData (h : r.kind.isData = true) : s.firstState r = (s.grantSegments r).aim r.rid := by
  unfold State.firstState
  cases hkind : r.kind
  case readBlocks | writeBlocks | writeAndCheck | checkBlocks => rfl
  all_goals simp [hkind, Kind.isData] at h

/-- A data request's first leg, its progress all at 0, is at its first block's physical track (R6, R82). -/
theorem legOf_first (es : List MapEntry) (hleg : dataLegged q) (hnext : q.nextBlock = 0) (hpos : q.writePos = 0) :
    (legOf es q).track = (dataTrack es q 0).1 := by
  obtain ⟨hop, hlabel, hformat⟩ := hleg
  have hwork : q.workBlock = 0 := by simp [Request.workBlock, hnext, hpos]
  simp only [legOf, hop, hlabel, hformat, dataLeg, hwork]

/-- The record of a data request chosen with two segments, and its drive's record, as its arm is sent (R27, R82). -/
def dataChosen (r : Request) (a b : Fin 8) (there : Bool) : Request :=
  { r.withSegments a b with reachedArm := true, state := if there then .positioned else .seeking }

def dataSent (n cyl : Nat) (there : Bool) (dr : DriveRec) : DriveRec :=
  if there then { dr with owner := some n, retryMark := false, arm := .onCylinder }
  else { dr with owner := some n, retryMark := false, arm := .seeking, tgtCyl := cyl, seekTimer := some 80000 }

theorem owned_sentTo (n cyl : Nat) (dr : DriveRec) :
    (owned n dr).sentTo cyl = dataSent n cyl (decide (dr.curCyl = cyl)) dr := by
  unfold dataSent
  by_cases h : dr.curCyl = cyl
  · rw [owned_sentTo_there h, decide_eq_true h]
    rfl
  · rw [owned_sentTo_away h, decide_eq_false h]
    rfl

theorem withSegments_sentBy (r : Request) (a b : Fin 8) (dr : DriveRec) (cyl : Nat) :
    ((chosen r).withSegments a b).sentBy dr cyl = dataChosen r a b (decide (dr.curCyl = cyl)) := by
  unfold Request.sentBy dataChosen
  by_cases h : dr.curCyl = cyl
  · rw [if_pos h, decide_eq_true h]
    rfl
  · rw [if_neg h, decide_eq_false h]
    rfl

/-- The arm sent for a request that has just given its data-wanted frames. -/
theorem aim_wantedGiven (h : s.entry q) (hpath : s.pathless q.rid) (hk : q.kind ≠ .position) (hop : q.op = none)
    (hcyl : cylOf (s.leg q).track = cyl) : (wantedGiven s r).aim q.rid =
      wantedGiven ((s.withRequest (q.sentBy (s.drive q.drive) cyl)).onDrive q.drive fun dr => dr.sentTo cyl) r := by
  subst hcyl
  obtain ⟨ps, hps⟩ := wantedGiven_frame s r
  have hsent := aim_pathless (s := { s with ports := ps }) h hpath hk
  rw [if_neg (by simp [hop])] at hsent
  rw [← wantedGiven_onDrive, ← wantedGiven_withRequest, hps]
  exact hsent

/-- The state with a data request chosen and its segments given. -/
def granted (s : State) (p : Port) (f : RequestFrame) (r : Request) (a b : Fin 8) : State :=
  segmentsHeld (atChoice s p f r ((chosen r).withSegments a b)) r.rid a b

theorem Newcomer.grantSegments (h : Newcomer s r) (hfree : s.freeSegments = a :: b :: rest) :
    (atChoice s p f r (chosen r)).grantSegments (chosen r) = wantedGiven (granted s p f r a b) r := by
  have hsegments : (atChoice s p f r (chosen r)).freeSegments = a :: b :: rest := by
    rw [← hfree, State.freeSegments, atChoice, entered_eq]
    rfl
  have hput : (segmentsHeld (atChoice s p f r (chosen r)) r.rid a b).withRequest ((chosen r).withSegments a b) =
      granted s p f r a b := congrArg (segmentsHeld · r.rid a b) (h.withRequest (q := (chosen r).withSegments a b) rfl)
  rw [← hput]
  exact grantSegments_eq (r := chosen r) h.stored hsegments

/-- The first state of a chosen data request: two segments, its data-wanted frames, and its arm sent (R77, R82). -/
theorem Newcomer.firstState_data (h : Newcomer s r) (hdata : r.kind.isData = true) (hleg : dataLegged r)
    (hnext : r.nextBlock = 0) (hpos : r.writePos = 0) (hfree : s.freeSegments = a :: b :: rest)
    (hcyl : cylOf (dataTrack (s.drive r.drive).map.entries r 0).1 = cyl) :
    let there := decide ((s.drive r.drive).curCyl = cyl)
    (atChoice s p f r (chosen r)).firstState (chosen r) = wantedGiven
      ((segmentsHeld (entered s p f r (dataChosen r a b there)) r.rid a b).onDrive r.drive (dataSent r.rid cyl there)) r := by
  intro there
  have hposition : r.kind ≠ .position := by
    intro hk
    rw [hk] at hdata
    cases hdata
  have hentry : (granted s p f r a b).entry ((chosen r).withSegments a b) :=
    entry_atChoice (p := p) (f := f) (r := r) (q := (chosen r).withSegments a b) h.alone h.stored
  have hpath : (granted s p f r a b).pathless r.rid :=
    pathless_atChoice (p := p) (f := f) (r := r) (q := (chosen r).withSegments a b) h.pathless
  have hmap : ((granted s p f r a b).drive r.drive).map = (s.drive r.drive).map := atChoice_map
  have hcur : ((granted s p f r a b).drive r.drive).curCyl = (s.drive r.drive).curCyl := atChoice_curCyl
  have htrack : cylOf ((granted s p f r a b).leg ((chosen r).withSegments a b)).track = cyl := by
    show cylOf (legOf ((granted s p f r a b).drive r.drive).map.entries ((chosen r).withSegments a b)).track = cyl
    rw [hmap, legOf_first (q := (chosen r).withSegments a b) _ hleg hnext hpos]
    exact hcyl
  have hsent := aim_wantedGiven (r := r) hentry hpath hposition hleg.1 htrack
  have hrecord : ((chosen r).withSegments a b).sentBy ((granted s p f r a b).drive r.drive) cyl = dataChosen r a b there := by
    rw [withSegments_sentBy, hcur]
  have hput : (granted s p f r a b).withRequest (dataChosen r a b there) =
      segmentsHeld (atChoice s p f r (dataChosen r a b there)) r.rid a b :=
    congrArg (segmentsHeld · r.rid a b) (atChoice_withRequest (q := (chosen r).withSegments a b)
      (q' := dataChosen r a b there) h.alone rfl)
  have hdrive : (segmentsHeld (atChoice s p f r (dataChosen r a b there)) r.rid a b).onDrive r.drive (fun dr => dr.sentTo cyl) =
      (segmentsHeld (entered s p f r (dataChosen r a b there)) r.rid a b).onDrive r.drive (dataSent r.rid cyl there) := by
    refine (onDrive_onDrive (s := segmentsHeld (entered s p f r (dataChosen r a b there)) r.rid a b) _ _).trans
      (onDrive_congr ?_)
    rw [owned_sentTo]
    exact congrArg (fun x => dataSent r.rid cyl (decide (x = cyl)) _) (noteClass_curCyl s r r.drive)
  rw [firstState_of_isData (r := chosen r) hdata, h.grantSegments hfree]
  refine hsent.trans ?_
  show wantedGiven (State.onDrive ((granted s p f r a b).withRequest
    (((chosen r).withSegments a b).sentBy ((granted s p f r a b).drive r.drive) cyl)) r.drive fun dr => dr.sentTo cyl) r = _
  rw [hrecord, hput, hdrive]

/-- So, nothing follows where nothing followed. -/
theorem quiet_data {there : Bool} (hs : s.quiet) (hk : r.kind.isData = true) : (wantedGiven
    ((segmentsHeld (entered s p f r (dataChosen r a b there)) r.rid a b).onDrive d (dataSent r.rid cyl there)) r).quiet := by
  have hsync : r.kind ≠ .synchronize := by
    intro h
    rw [h] at hk
    cases hk
  have hstate : (dataChosen r a b there).state ≠ .queued := by cases there <;> exact nofun
  refine quiet_wantedGiven ?_
  refine quiet_entered_owned (s := s) (p := p) (f := f) (r := r) (q := dataChosen r a b there) (d := d) hs (fun dr => ?_)
    hstate hsync
  cases there <;> exact ⟨rfl, rfl, rfl, rfl, nofun⟩

end

/-- Settles O23: two segments free, the request not barred, it is chosen, given its segments, and its arm sent. -/
theorem dataRequestChosen : Obligations.DataRequestChosen := by
  intro k p f c d o s a b rest hc hk hpass hm hfree hq hf hcount hbar hseg r cyl there q u v
  have harrives : ArrivesFree s k p f c d o := ⟨hc, hpass, hm, hfree, hq, hf⟩
  have hnew : Newcomer s r := newcomer_of_arrival harrives
  have hel : (entered s p f r r).eligible r = true := by
    refine eligible_entered hq hfree hbar (fun _ => ?_) fun hbuf => ?_
    · rw [hseg]
      exact Nat.le_add_left 2 rest.length
    · have hkind : k = .spareTrack ∨ k = .returnAlternate := hbuf
      rcases hkind with h | h <;> simp [h, Kind.isData] at hk
  have hv : v = (segmentsHeld (entered s p f r (dataChosen r a b there)) r.rid a b).onDrive d (dataSent r.rid cyl there) := by
    rw [segmentsHeld_entered]
    rfl
  show exec c s = .next (State.flush (wantedGiven v r))
  rw [hv]
  exact exec_chosen harrives rfl (fun _ => hcount) hel
    (hnew.firstState_data hk ⟨rfl, rfl, rfl⟩ rfl rfl hseg rfl) (quiet_data hq hk)

end Sys2Proof.Proofs

/-! ### Track-upkeep requests chosen at once (R77, R119, R131, R133 to R135) -/

namespace Sys2Proof.Proofs
open Sys2Proof Sys2Proof.Machine Sys2Proof.Laws

section
variable {s t : State} {p : Port} {d : Drive} {k : Kind} {f : RequestFrame} {o : Operands} {c : Instr} {r q : Request}
  {cyl i : Nat} {op : SpareOp} {slots : List Slot} {e : Ending}

/-! #### An operation begun (R118 to R120, R134) -/

/-- The state with the sparing buffer held by a request, and its slots (R118). -/
def bufferHeld (s : State) (n : Nat) (slots : List Slot) : State :=
  { s with buffer := { s.buffer with holder := some n, slots := slots } }

/-- A request as its operation begins: SPARING, its record of the operation made (R119). -/
def operating (r : Request) (op : SpareOp) : Request := { r with state := .sparing, op := some op, phase := .idle }

theorem beginOp_pathless (h : s.entry r) (hpath : s.pathless r.rid) (hk : r.kind ≠ .position)
    (hi : nextUnread slots 0 = some i) : s.beginOp r.rid op slots =
      ((bufferHeld s r.rid slots).withRequest (operating r { op with pos := i })).onDrive r.drive fun dr =>
        dr.sentTo (cylOf (opLeg { op with pos := i }).track) := by
  have hentry : (bufferHeld s r.rid slots).entry r := h
  have hput : (bufferHeld s r.rid slots).onRequest r.rid (fun q => { q with state := .sparing, op := some op, phase := .idle }) =
      (bufferHeld s r.rid slots).withRequest (operating r op) :=
    (onRequest_some (request?_entry hentry) _).trans (putRequest_table (r := operating r op) h.2.2)
  have haim := aim_onRequest (g := fun q => { q with op := some { op with pos := i } })
    (entry_withRequest (q := operating r op) hentry rfl h.2.2) hpath rfl rfl hk
  unfold State.beginOp
  rw [hi]
  dsimp only
  rw [← bufferHeld, hput]
  refine haim.trans ?_
  refine congrArg (fun v : State => v.onDrive r.drive fun dr => dr.sentTo (cylOf (opLeg { op with pos := i }).track)) ?_
  exact withRequest_withRequest (r := operating r op) (q := operating r { op with pos := i }) rfl

/-- The chosen request's operation begun, its first leg on another cylinder. -/
theorem Newcomer.beginOp_away (h : Newcomer s r) (hk : r.kind ≠ .position) (hi : nextUnread slots 0 = some i)
    (hcyl : cylOf (opLeg { op with pos := i }).track = cyl) (hc : (s.drive r.drive).curCyl ≠ cyl) :
    (atChoice s p f r (chosen r)).beginOp r.rid op slots =
      bufferHeld ((entered s p f r (operating (chosen r) { op with pos := i })).onDrive r.drive (sentAway r.rid cyl))
        r.rid slots := by
  have hbegin := beginOp_pathless (op := op) (h.entry (p := p) (f := f)) (pathless_atChoice h.pathless) hk hi
  have hput := h.withRequest (p := p) (f := f) (q := operating (chosen r) { op with pos := i }) rfl
  rw [hcyl] at hbegin
  rw [← atChoice_sent_away hc, ← hput]
  exact hbegin

theorem quiet_bufferHeld (h : s.quiet) (n : Nat) (slots : List Slot) : (bufferHeld s n slots).quiet := h

theorem bufferHeld_entered {g : DriveRec → DriveRec} (n : Nat) : bufferHeld ((entered s p f r q).onDrive d g) n slots =
    { (entered s p f r q).onDrive d g with buffer := { s.buffer with holder := some n, slots := slots } } := by
  obtain ⟨hbuffer, -, -⟩ := entered_rest (s := s) (p := p) (f := f) (r := r) (q := q)
  rw [bufferHeld, onDrive_buffer, hbuffer]

/-! #### A request that ends as it is chosen (R134) -/

theorem freeSegmentsOf_unheld {n : Nat} (h : ∀ i : Fin 8, s.segments[i] ≠ some n) : s.freeSegmentsOf n = s :=
  foldl_unmoved _ fun i _ => if_neg (h i)

theorem leaveBuffer_unheld {n : Nat} (hh : s.buffer.holder ≠ some n) (hw : n ∉ s.buffer.waiters) : s.leaveBuffer n = s := by
  have hfilter : s.buffer.waiters.filter (· != n) = s.buffer.waiters :=
    List.filter_eq_self.2 fun a ha => by simpa using ne_of_mem_of_not_mem ha hw
  rw [State.leaveBuffer, if_neg hh, hfilter]

/-- An arm owner that holds neither path nor segment nor the buffer gives back its arm and its entry alone. -/
theorem givenBack_arm (hpath : s.pathless r.rid) (hseg : ∀ i : Fin 8, s.segments[i] ≠ some r.rid)
    (hh : s.buffer.holder ≠ some r.rid) (hw : r.rid ∉ s.buffer.waiters) (ho : (s.drive r.drive).owner = some r.rid) :
    givenBack s r = { s.onDrive r.drive DriveRec.loseOwner with table := s.table.filter (·.rid != r.rid) } := by
  unfold givenBack
  rw [leavePaths_pathless hpath, freeSegmentsOf_unheld hseg, leaveBuffer_unheld hh hw]
  dsimp only
  rw [if_pos ho]
  rfl

/-- An arm that was free is as it was when its owner leaves it before it has moved, the movement-retry mark apart (R26, R144). -/
theorem loseOwner_owned {dr : DriveRec} (h : dr.armFree = true) (n : Nat) : (owned n dr).loseOwner = { dr with retryMark := false } := by
  obtain ⟨-, harm, hown⟩ := armFree_iff.1 h
  cases dr
  subst harm hown
  rfl

theorem unnamed_atChoice (h : s.fresh) : (∀ i : Fin 8, (atChoice s p f r q).segments[i] ≠ some s.nextOrder)
    ∧ (atChoice s p f r q).buffer.holder ≠ some s.nextOrder ∧ s.nextOrder ∉ (atChoice s p f r q).buffer.waiters := by
  obtain ⟨-, -, -, -, -, -, hseg, hholder, hwaits⟩ := h
  rw [atChoice, entered_eq]
  exact ⟨hseg, hholder, hwaits⟩

/-- An operation's end finds nothing to clear where the request has none, and ends the request (R119). -/
theorem opEnds_unbegun (h : s.entry r) (hop : r.op = none) (hst : r.state = .positioned) (hh : s.buffer.holder ≠ some r.rid)
    (hw : r.rid ∉ s.buffer.waiters) (hp : r.pendingEnding = none) : s.opEnds r.rid e = s.conclude r.rid e := by
  have hsame : { r with op := none, state := .positioned } = r := by
    cases r
    subst hop hst
    rfl
  have hclosed : s.closeOp r.rid = s := by
    rw [State.closeOp, leaveBuffer_unheld hh hw, onRequest_some (request?_entry h), hsame, putRequest_table h.2.2,
      withRequest_self h]
  simp only [State.opEnds, hclosed, request?_entry h, hp, Option.getD_none]

/-- A chosen request gives back its arm and its entry, whatever has become of its port. -/
theorem givenBack_chosen (hf : s.fresh) (hnew : Newcomer s r) (hrid : r.rid = s.nextOrder) (F : PortRec → PortRec) :
    givenBack ((atChoice s p f r (chosen r)).onPort p F) (chosen r) =
      { ((atChoice s p f r (chosen r)).onPort p F).onDrive r.drive DriveRec.loseOwner with table := s.table } := by
  obtain ⟨hseg, hholder, hwaits⟩ := unnamed_atChoice (p := p) (f := f) (r := r) (q := chosen r) hf
  have howner : ((atChoice s p f r (chosen r)).drive r.drive).owner = some r.rid := by
    rw [atChoice_drive]
    rfl
  have htable : (atChoice s p f r (chosen r)).table.filter (·.rid != r.rid) = s.table := by
    refine (List.filter_append _ _).trans ?_
    rw [List.filter_eq_self.2 fun q hq => by simpa using hnew.alone q hq]
    simp [chosen]
  rw [← hrid] at hseg hholder hwaits
  rw [← htable]
  exact givenBack_arm (s := (atChoice s p f r (chosen r)).onPort p F) (r := chosen r)
    (pathless_atChoice (p := p) (f := f) (q := chosen r) hnew.pathless) hseg hholder hwaits howner

theorem plain_chosen (h : ArrivesFree s k p f c d o) (hm : s.matching .reportAfter p d k o.extent = []) :
    (atChoice s p f (s.newRequest p d k f o) (chosen (s.newRequest p d k f o))).plain (chosen (s.newRequest p d k f o)) := by
  obtain ⟨-, hpred, -⟩ := h.fresh
  refine ⟨(newcomer_of_arrival h).entry, rfl, rfl, rfl, fun q hq => ?_, fun _ => ?_⟩
  · rcases List.mem_append.1 hq with hold | hlast
    · exact hpred q hold
    · rw [List.mem_singleton.1 hlast]
      exact nofun
  · rw [← hm]
    refine matching_congr ?_
    rw [atChoice, entered_eq]
    rfl

/-- The DONE ending of a chosen request is told at its port alone, its window mark being clear already (R63). -/
theorem reported_chosen (h : ArrivesFree s k p f c d o) (hr : s.newRequest p d k f o = r) (he : e.cls = .done) :
    reported (atChoice s p f r (chosen r)) (chosen r) e = (atChoice s p f r (chosen r)).onPort p (endedWith r.rid .endedDone
      (endingReport (atChoice s p f r (chosen r)) (chosen r) e .none)) := by
  have hentry := (newcomer_of_arrival h).entry (p := p) (f := f)
  rw [hr] at hentry
  refine Eq.trans ?_ (withRequest_self (s := (atChoice s p f r (chosen r)).onPort p (endedWith r.rid .endedDone
    (endingReport (atChoice s p f r (chosen r)) (chosen r) e .none))) hentry)
  subst hr
  rw [reported, he]
  rfl

/-- A chosen request that ends DONE before its arm has moved leaves its report and its standing alone behind (R50, R63). -/
theorem conclude_chosen (h : ArrivesFree s k p f c d o) (hk : k.isData = false)
    (hm : s.matching .reportAfter p d k o.extent = []) (hr : s.newRequest p d k f o = r) (he : e.cls = .done) :
    (atChoice s p f r (chosen r)).conclude r.rid e =
      { s.onPort p fun pr =>
          { pr with
            reports := pr.reports ++ [endingReport (atChoice s p f r (chosen r)) (chosen r) e .none]
            marker := if f.chain then some { member := some r.rid, drive := d, standing := .endedDone } else none }
        with nextOrder := s.nextOrder + 1 }.onDrive d fun dr => { dr with retryMark := false } := by
  have htold := reported_chosen h hr he
  have hnew := newcomer_of_arrival h
  have hplain := plain_chosen h hm
  have hrid : r.rid = s.nextOrder := hr ▸ rfl
  have hdrive : r.drive = d := hr ▸ rfl
  have hdata : r.kind.isData = false := by
    subst hr
    exact hk
  rw [hr] at hnew hplain
  generalize endingReport (atChoice s p f r (chosen r)) (chosen r) e .none = rep at *
  have hleave := leaveTable_unfolded (s := (atChoice s p f r (chosen r)).onPort p (endedWith r.rid .endedDone rep))
    (request?_entry hplain.1) hnew.stored (.inl hplain.2.1)
  have hport : (s.onPort p fun pr => endedWith r.rid .endedDone rep (openedBy f r.rid d pr)) = s.onPort p fun pr =>
      { pr with
        reports := pr.reports ++ [rep]
        marker := if f.chain then some { member := some r.rid, drive := d, standing := .endedDone } else none } :=
    onPort_congr (by cases hchain : f.chain <;> simp [openedBy, endedWith, hchain])
  rw [givenBack_chosen h.fresh hnew hrid, ← htold] at hleave
  refine (conclude_plain hplain).trans (hleave.trans ?_)
  subst hdrive
  rw [htold, atChoice, entered_other hdata, ← hport]
  refine Eq.trans ?_ ((withdrawn_entry s (openedBy f r.rid r.drive) (endedWith r.rid .endedDone rep)
    (fun dr => (owned r.rid dr).loseOwner) (s.table ++ [chosen r]) (s.nextOrder + 1)).trans
      (onDrive_congr (loseOwner_owned h.free r.rid)))
  rw [← onDrive_onDrive (owned r.rid) DriveRec.loseOwner]
  rfl

/-- RETURN ALTERNATE of a home without an assignment ends as it is chosen (R134). -/
theorem chooseReturn_unassigned (h : ArrivesFree s k p f c d o) (hr : s.newRequest p d k f o = r)
    (hes : lookupHome (s.drive r.drive).map.entries r.namedTrack = none) :
    (atChoice s p f r (chosen r)).chooseReturn (chosen r) =
      (atChoice s p f r (chosen r)).conclude r.rid (Ending.make .done .none) := by
  have hnew := newcomer_of_arrival h
  obtain ⟨-, hholder, hwaits⟩ := unnamed_atChoice (p := p) (f := f) (r := r) (q := chosen r) h.fresh
  have hrid : r.rid = s.nextOrder := hr ▸ rfl
  have hpending : (chosen r).pendingEnding = none := by
    subst hr
    rfl
  rw [hr] at hnew
  rw [← hrid] at hholder hwaits
  have hlookup : lookupHome ((atChoice s p f r (chosen r)).drive (chosen r).drive).map.entries (chosen r).namedTrack = none := by
    show lookupHome ((atChoice s p f r (chosen r)).drive r.drive).map.entries r.namedTrack = none
    rw [atChoice_map]
    exact hes
  unfold State.chooseReturn
  rw [hlookup]
  exact opEnds_unbegun hnew.entry hnew.plain rfl hholder hwaits hpending

/-- SPARE TRACK with an alternate free begins its operation (R119, R133). -/
theorem chooseSpare_begins {j : Nat} (hnew : Newcomer s r)
    (hj : chooseAlternate (s.drive r.drive).map.entries r.namedTrack = some j) :
    (atChoice s p f r (chosen r)).chooseSpare (chosen r) = (atChoice s p f r (chosen r)).beginOp r.rid
      { step := .readSource, home := r.namedTrack, source := lookupHome (s.drive r.drive).map.entries r.namedTrack, alt := j
        attempt := 1, origin := .field, pos := 0, revs := 0 } (List.replicate 24 .unread) := by
  have hmap : ((atChoice s p f r (chosen r)).drive (chosen r).drive).map.entries = (s.drive r.drive).map.entries :=
    congrArg MapRec.entries atChoice_map
  show State.beginSparing _ r.rid r.namedTrack .field _ = _
  unfold State.beginSparing
  have hreq : (atChoice s p f r (chosen r)).request? r.rid = some (chosen r) := request?_entry hnew.entry
  rw [hreq]
  dsimp only
  rw [hmap, hj]

/-- RETURN ALTERNATE of a home with an assignment begins its operation (R134). -/
theorem chooseReturn_begins {j : Nat} (hj : lookupHome (s.drive r.drive).map.entries r.namedTrack = some j) :
    (atChoice s p f r (chosen r)).chooseReturn (chosen r) = (atChoice s p f r (chosen r)).beginOp r.rid
      { step := .readAlternate, home := r.namedTrack, source := some j, alt := j, attempt := 1, origin := .field, pos := 0
        revs := 0 } (List.replicate 24 .unread) := by
  have hlookup : lookupHome ((atChoice s p f r (chosen r)).drive (chosen r).drive).map.entries (chosen r).namedTrack = some j := by
    show lookupHome ((atChoice s p f r (chosen r)).drive r.drive).map.entries r.namedTrack = some j
    rw [atChoice_map]
    exact hj
  unfold State.chooseReturn
  rw [hlookup]
  rfl

/-- FORMAT TRACK of a track outside the map makes its format record and sends its arm (R135). -/
theorem firstState_format (hk : r.kind = .formatTrack) (hmap : trackInMap (s.drive r.drive).map.entries r.namedTrack = false) :
    (atChoice s p f r (chosen r)).firstState (chosen r) = ((atChoice s p f r (chosen r)).onRequest r.rid
      fun q => { q with format := some { checking := false, pos := 0, attempt := 1 } }).aim r.rid := by
  have hin : trackInMap ((atChoice s p f r (chosen r)).drive (chosen r).drive).map.entries (chosen r).namedTrack = false := by
    show trackInMap ((atChoice s p f r (chosen r)).drive r.drive).map.entries r.namedTrack = false
    rw [atChoice_map]
    exact hmap
  have hkind : (chosen r).kind = .formatTrack := hk
  unfold State.firstState
  rw [hkind]
  dsimp only
  rw [hin, if_neg nofun]
  rfl

/-- The image a label write records, as its request is chosen (R131). -/
def imageOf (dr : DriveRec) : LabelImage :=
  { serial := dr.serial.getD 0, generation := (dr.map.generation + 1) % 65536, entries := dr.map.entries }

/-- A label write's legs are on the label cylinder (R131). -/
theorem legOf_label_cyl {j : LabelJob} (es : List MapEntry) (hop : q.op = none) (hl : q.label = some j) :
    cylOf (legOf es q).track = 568 := by
  simp only [legOf, hop, hl, labelLeg]
  decide

/-- WRITE LABEL takes its image and sends its arm (R131). -/
theorem firstState_label (hk : r.kind = .writeLabel) :
    (atChoice s p f r (chosen r)).firstState (chosen r) = ((atChoice s p f r (chosen r)).onRequest r.rid
      fun q => { q with label := some { image := imageOf (s.drive r.drive), step := 0, attempt := 1, back := [] } }).aim r.rid := by
  have himage : imageOf ((atChoice s p f r (chosen r)).drive r.drive) = imageOf (s.drive r.drive) := by
    obtain ⟨v, hv⟩ := noteClass_drive s r r.drive
    rw [atChoice_drive, hv]
    rfl
  have hkind : (chosen r).kind = .writeLabel := hk
  unfold State.firstState
  rw [hkind, ← himage]
  rfl

/-- An upkeep request whose first state begins an operation holds the buffer, its arm under way (R118, R119). -/
theorem exec_operation (h : ArrivesFree s k p f c d o) (hr : s.newRequest p d k f o = r) (hdata : k.isData = false)
    (hk : k ≠ .position) (hsync : k ≠ .synchronize) (hel : (entered s p f r r).eligible r = true)
    (hfirst : (atChoice s p f r (chosen r)).firstState (chosen r) = (atChoice s p f r (chosen r)).beginOp r.rid op slots)
    (hi : nextUnread slots 0 = some i) (hcyl : cylOf (opLeg { op with pos := i }).track = cyl) (hc : (s.drive d).curCyl ≠ cyl) :
    exec c s = .next (State.flush
      { { s.onPort p fun pr =>
            { pr with marker := if f.chain then some { member := some r.rid, drive := d, standing := .unended } else none }
          with table := s.table ++ [operating (chosen r) { op with pos := i }], nextOrder := s.nextOrder + 1 }.onDrive d
            (sentAway r.rid cyl) with
        buffer := { s.buffer with holder := some r.rid, slots := slots } }) := by
  have hnew := newcomer_of_arrival h
  subst hr
  have hbegin := hfirst.trans (hnew.beginOp_away (p := p) (f := f) hk hi hcyl hc)
  have hexec := exec_chosen h rfl (fun hyes => absurd (hdata.symm.trans hyes) nofun) hel hbegin
    (quiet_bufferHeld (quiet_entered_owned h.quiet (sentAway_keeps _ cyl) (by simp [operating]) hsync) _ slots)
  rw [bufferHeld_entered, entered_other hdata] at hexec
  exact hexec

/-- An upkeep request whose first state makes its record and sends its arm (R82). -/
theorem exec_sent {g : Request → Request} (h : ArrivesFree s k p f c d o) (hr : s.newRequest p d k f o = r)
    (hdata : k.isData = false) (hk : k ≠ .position) (hsync : k ≠ .synchronize) (hel : (entered s p f r r).eligible r = true)
    (hfirst : (atChoice s p f r (chosen r)).firstState (chosen r) =
      ((atChoice s p f r (chosen r)).onRequest r.rid g).aim r.rid)
    (hg : (g (chosen r)).rid = r.rid ∧ (g (chosen r)).kind = r.kind ∧ (g (chosen r)).drive = r.drive ∧ (g (chosen r)).op = none)
    (hcyl : cylOf (legOf (s.drive d).map.entries (g (chosen r))).track = cyl) (hc : (s.drive d).curCyl ≠ cyl) :
    exec c s = .next (State.flush ({ s.onPort p fun pr =>
          { pr with marker := if f.chain then some { member := some r.rid, drive := d, standing := .unended } else none }
        with table := s.table ++ [{ g (chosen r) with state := .seeking }], nextOrder := s.nextOrder + 1 }.onDrive d
          (sentAway r.rid cyl))) := by
  obtain ⟨hid, hkind, hdrive, hop⟩ := hg
  have hnew := newcomer_of_arrival h
  subst hr
  have haim := hnew.aim_away (p := p) (f := f) (g := g) hid hkind hdrive hk hcyl hc
  rw [if_neg (by simp [hop])] at haim
  have hexec := exec_chosen h rfl (fun hyes => absurd (hdata.symm.trans hyes) nofun) hel (hfirst.trans haim)
    (quiet_entered_owned h.quiet (sentAway_keeps _ cyl) nofun (hkind.trans_ne hsync))
  rw [entered_other hdata] at hexec
  exact hexec

end

/-- Settles O28: the request is not barred and the buffer is unheld, so it is chosen; its operation, format or label record is
made and its arm sent, or it ends in its arrival event. -/
theorem upkeepRequestChosen : Obligations.UpkeepRequestChosen := by
  intro k p f c d o s hc hpass hm hfree hq hf hbar hholder r es home mark u held
  have harrives : ArrivesFree s k p f c d o := ⟨hc, hpass, hm, hfree, hq, hf⟩
  have hnew : Newcomer s r := newcomer_of_arrival harrives
  have hel : k.isData = false → (entered s p f r r).eligible r = true := fun hk =>
    eligible_entered hq hfree hbar (fun h => absurd (hk.symm.trans h) nofun) fun _ => hholder
  refine ⟨fun hk j hj hne => ?_, fun hk j hj hne => ?_, fun hk hes hwin => ?_, fun hk hne => ?_, fun hk hne => ?_⟩
  all_goals subst hk
  · have hexec := exec_operation (i := 0) (cyl := cylOf (physicalTrack es home)) harrives rfl rfl nofun nofun (hel rfl)
      (chooseSpare_begins hnew hj) (by decide) rfl hne.symm
    exact hexec
  · have hexec := exec_operation (i := 0) (cyl := cylOf (altTrack j)) harrives rfl rfl nofun nofun (hel rfl)
      (chooseReturn_begins hj) (by decide) rfl hne.symm
    exact hexec
  · have hend := (chooseReturn_unassigned harrives rfl hes).trans (conclude_chosen harrives rfl hwin rfl rfl)
    exact ⟨_, exec_chosen harrives rfl nofun (hel rfl) hend (quiet_onDrive hq rfl id Iff.rfl fun _ h => h), rfl, rfl, rfl⟩
  · obtain ⟨-, -, -, -, -, hmap⟩ := hpass
    have hexec := exec_sent (cyl := cylOf home) harrives rfl rfl nofun nofun (hel rfl) (firstState_format rfl (hmap rfl))
      ⟨rfl, rfl, rfl, rfl⟩ rfl hne.symm
    exact hexec
  · have hexec := exec_sent (cyl := 568) harrives rfl rfl nofun nofun (hel rfl) (firstState_label rfl)
      ⟨rfl, rfl, rfl, rfl⟩ (legOf_label_cyl _ rfl rfl) hne.symm
    exact hexec

end Sys2Proof.Proofs

/-! ### A record replaced in the progress of its data (R102 to R105) -/

namespace Sys2Proof.Proofs
open Sys2Proof Sys2Proof.Machine Sys2Proof.Laws

section
variable {s t : State} {q r : Request} {e : Ending}

/-- A record that stands in the table as another does: it differs from it at most in the progress of its data. -/
structure StandsAs (q r : Request) : Prop where
  rid : q.rid = r.rid
  port : q.port = r.port
  drive : q.drive = r.drive
  kind : q.kind = r.kind
  extent : q.extent = r.extent
  state : q.state = r.state
  pred : q.pred = r.pred
  earlyEffective : q.earlyEffective = r.earlyEffective
  earlyEnded : q.earlyEnded = r.earlyEnded
  detached : q.detached = r.detached
  failure : q.failure = r.failure
  reachedArm : q.reachedArm = r.reachedArm

theorem StandsAs.replaced (h : StandsAs q r) (he : s.entry r) : (s.withRequest q).entry q :=
  entry_withRequest he h.rid (h.kind.trans_ne he.2.2)

theorem StandsAs.put (h : StandsAs q r) (he : s.entry r) : s.putRequest q = s.withRequest q :=
  putRequest_table (h.kind.trans_ne he.2.2)

theorem StandsAs.plain (h : StandsAs q r) (hp : s.plain r) : (s.withRequest q).plain q := by
  obtain ⟨hentry, hearly, hdetached, hfailure, hpred, hmet⟩ := hp
  refine ⟨h.replaced hentry, h.earlyEnded.trans hearly, h.detached.trans hdetached, h.failure.trans hfailure, ?_,
    fun harm => ?_⟩
  · rw [h.rid]
    exact table_pred hpred hentry.1 h.pred
  · rw [h.port, h.drive, h.kind, h.extent]
    exact hmet (h.reachedArm.symm.trans harm)

/-- A record so replaced leaves a quiet state quiet. -/
theorem StandsAs.quiet (h : StandsAs q r) (hq : s.quiet) (he : s.entry r) (hst : r.state ≠ .queued) :
    (s.withRequest q).quiet :=
  quiet_withRequest hq he h.rid h.kind h.drive h.port h.earlyEffective hst (h.state.trans_ne hst) h.state.symm.trans

/-- Nothing follows from the ending of a request that ends quietly, its record so replaced. -/
theorem StandsAs.close_conclude (h : StandsAs q r) (hs : s.endsQuietly r) :
    t.close ((s.withRequest q).conclude r.rid e) = ((s.withRequest q).conclude r.rid e).flush := by
  obtain ⟨hq, hp, hqueue, hearly⟩ := hs
  have hst : r.state ≠ .queued := (queue_eq_nil.1 hqueue).1 r hp.1.1 rfl
  have hempty : (s.withRequest q).queue q.drive = [] := by
    rw [h.drive]
    exact queue_withRequest_nil (h.state.trans_ne hst) hqueue
  have hquiet := quiet_conclude_at (e := e) (h.quiet hq hp.1 hst) (h.plain hp) (h.earlyEffective.trans hearly) (.inr hempty)
  rw [h.rid] at hquiet
  exact close_quiet hquiet

theorem standsAs_retime {wait : Option Nat} (h : StandsAs q r) (x : Request) : StandsAs (x.retime q wait) r := by
  obtain ⟨t, ht⟩ := retime_eq x q wait
  rw [ht]
  exact { h with }

theorem standsAs_setHalf (one : Bool) (half : Half) : StandsAs (r.setHalf one half) r := by
  cases one <;> constructor <;> rfl

end

end Sys2Proof.Proofs

/-! ### The order in which a port sends frames (R107, R181), and the link events that complete (R105, R177, R180, R182) -/

namespace Sys2Proof.Proofs
open Sys2Proof Sys2Proof.Machine Sys2Proof.Laws

section
variable {s : State} {p : Port} {r : Request}

/-! #### The next frame, in its three ranks (R181) -/

theorem nextFrame_wanted {w : WantedFrame} {rest : List WantedFrame} (h : (s.port p).wanted = w :: rest) :
    s.nextFrame p = some (.wanted w, { s.port p with wanted := rest }) := by
  simp only [State.nextFrame, h]

theorem nextFrame_report {x : Report} {rest : List Report} (hw : (s.port p).wanted = [])
    (hr : (s.port p).reports = x :: rest) : s.nextFrame p = some (.report x, s.port p) := by
  simp only [State.nextFrame, hw, hr]

/-- With no data-wanted frame and no report, a dropped hold line lets the oldest block ready go (R102, R107). -/
theorem nextFrame_dataIn (hw : (s.port p).wanted = []) (hr : (s.port p).reports = []) : s.nextFrame p =
    if (s.port p).hold then none
    else ((s.entriesOf p).findSome? Request.dataIn?).map fun f => (f, s.port p) := by
  simp only [State.nextFrame, hw, hr]

/-- The oldest read of the port with a block ready is the one behind entries that are another port's or have none. -/
theorem findSome?_entriesOf {a b : List Request} {x : OutFrame} (ht : s.table = a ++ r :: b) (hp : r.port = p)
    (ha : ∀ q ∈ a, q.port = p → q.dataIn? = none) (hr : r.dataIn? = some x) :
    (s.entriesOf p).findSome? Request.dataIn? = some x := by
  have hahead : (a.filter (·.port = p)).findSome? Request.dataIn? = none :=
    List.findSome?_eq_none_iff.2 fun q hq => by
      obtain ⟨hqa, hqp⟩ := List.mem_filter.1 hq
      exact ha q hqa (by simpa using hqp)
  rw [State.entriesOf, ht, List.filter_append, List.filter_cons_of_pos (by simpa using hp), List.findSome?_append, hahead,
    Option.none_or, List.findSome?_cons_of_isSome (by simp [hr]), hr]

theorem findSome?_entriesOf_none (h : ∀ q ∈ s.table, q.port = p → q.dataIn? = none) :
    (s.entriesOf p).findSome? Request.dataIn? = none :=
  List.findSome?_eq_none_iff.2 fun q hq => by
    obtain ⟨hmem, hqp⟩ := List.mem_filter.1 hq
    exact h q hmem (by simpa using hqp)

/-! #### A frame begun, or none -/

theorem pump_begins {f : OutFrame} {pr : PortRec} (hon : (s.port p).online = true) (hfree : (s.port p).sending = none)
    (h : s.nextFrame p = some (f, pr)) : s.pump p = s.onPort p fun _ => { pr with sending := some f } := by
  simp only [State.pump, hon, hfree, h, Option.isNone_none, and_self, if_true]

theorem pump_nothing (h : s.nextFrame p = none) : s.pump p = s := by
  simp only [State.pump, h, ite_self]

/-- A port that is not ONLINE, or whose direction is in use, begins nothing (R177, R181). -/
theorem pump_unfree (h : (s.port p).online = false ∨ (s.port p).sending ≠ none) : s.pump p = s := by
  refine if_neg fun ⟨hon, hfree⟩ => ?_
  rcases h with h | h
  · simp [h] at hon
  · exact h (by simpa using hfree)

end

/-- Settles O39: each rank of the next frame is begun when those above it have none, and beginning changes the waiting and
sent frames alone. -/
theorem sendingOrder : Obligations.SendingOrder := by
  intro s p
  refine ⟨fun hon hfree => ⟨fun w rest hw => ?_, fun r rest hw hr => ?_, fun hw hr hhold => ?_,
    fun a r b x hw hr hhold ht hp ha hx => ?_, fun hw hr hnone => ?_⟩, pump_unfree, flush_sameButFrames, pump_sameButFrames⟩
  · exact (pump_begins hon hfree (nextFrame_wanted hw)).trans (onPort_congr rfl)
  · exact (pump_begins hon hfree (nextFrame_report hw hr)).trans (onPort_congr rfl)
  · exact pump_nothing (by rw [nextFrame_dataIn hw hr, hhold, if_pos rfl])
  · have hnext : s.nextFrame p = some (x, s.port p) := by
      rw [nextFrame_dataIn hw hr, hhold, if_neg nofun, findSome?_entriesOf ht hp ha hx, Option.map_some]
    exact (pump_begins hon hfree hnext).trans (onPort_congr rfl)
  · exact pump_nothing (by rw [nextFrame_dataIn hw hr, findSome?_entriesOf_none hnone, Option.map_none, ite_self])

section
variable {s : State} {p : Port} {r : Request}

/-- The state with a port's frame sent in full: its sending direction is free (R181). -/
def sentOff (s : State) (p : Port) : State := s.onPort p fun pr => { pr with sending := none }

/-- A frame sent leaves every port's settings. -/
theorem settings_sentOff (p q : Port) : ((sentOff s p).port q).settings = (s.port q).settings := by
  unfold sentOff
  by_cases hq : q = p
  · rw [hq, port_onPort_same]
  · rw [port_onPort_other _ hq]

/-- A data-wanted frame sent for a half that waits for its round asks for it and starts its timer (R105, R182). -/
theorem wantedSent_asks {w : WantedFrame} (hfound : s.request? w.rid = some r) (hk : r.kind ≠ .labelUpdate)
    (hheld : r.held = none) (hd : r.detached = false) (hst : (r.half (decide (w.first / 12 % 2 = 1))).state = .wanted)
    (hround : (r.half (decide (w.first / 12 % 2 = 1))).round = w.first / 12) :
    s.wantedSent w = s.withRequest (r.setHalf (decide (w.first / 12 % 2 = 1))
      { r.half (decide (w.first / 12 % 2 = 1)) with asked := true, timer := (s.port r.port).settings.waitTimer }) := by
  rw [← putRequest_table ((standsAs_setHalf ..).kind.trans_ne hk)]
  simp only [State.wantedSent, hfound, hst, hround, hheld, hd, Option.isNone_none, and_self, if_true]

theorem exec_dataWantedSent {w : WantedFrame} (hpow : s.powered = true) (hw : (s.port p).sending = some (.wanted w)) :
    exec (.dataWantedSent p) s = .next (((sentOff s p).wantedSent w).pump p) := by
  show execDataWantedSent p s = _
  simp only [execDataWantedSent, live_powered hpow, hw]
  rfl

end

/-- Settles O40: a report leaves its queue, a data-wanted frame leaves its round asked for, the hold line and the signal
change their own field, and the port begins its next frame. -/
theorem linkEventsComplete : Obligations.LinkEventsComplete := by
  intro p s hpow
  refine ⟨fun r hr => ?_, ?_, fun raised => live_powered hpow, fun hoff => ?_⟩
  · show execReportSent p s = _
    simp only [execReportSent, live_powered hpow, hr]
  · intro w r hw hfound hk hheld hd one hst hround
    have hasks := wantedSent_asks (s := sentOff s p) hfound hk hheld hd hst hround
    rw [settings_sentOff] at hasks
    rw [exec_dataWantedSent hpow hw, hasks]
    rfl
  · show execLinkSignalAppears p s = _
    simp only [execLinkSignalAppears, live_powered hpow, hoff, Bool.false_eq_true, if_false]

end Sys2Proof.Proofs

/-! ### Frames that carry no data (R104, R178), and failures of the data path (R104, R105, R125) -/

namespace Sys2Proof.Proofs
open Sys2Proof Sys2Proof.Machine Sys2Proof.Laws

section
variable {s t : State} {p : Port} {r : Request} {e : Ending} {os : List Octet} {tag : Octet} {index : Word16} {b : Block}

theorem exec_dataOut (hpow : s.powered = true) (hon : (s.port p).online = true) :
    exec (.dataOut p tag index b) s = .next (s.dataOutFrame p tag index.toNat b) := by
  show execDataOut p tag index b s = _
  rw [execDataOut, live_powered hpow, if_pos hon]

theorem exec_badFrame (hpow : s.powered = true) (hon : (s.port p).online = true) (hbad : isBadFrame os = true) :
    exec (.badFrame p os) s = .next (s.badFrameAt p os) := by
  show execBadFrame p os s = _
  rw [execBadFrame, live_powered hpow, if_pos ⟨hon, hbad⟩]

/-- A discarded frame that names no request of the port is counted, and no more (R178). -/
theorem badFrameAt_unnamed (h : frameCheckGood os = true ∨ (octetAt os 0).toNat ≠ 3 ∨ os.length < 4
    ∨ s.tagged? p (octetAt os 1).toNat = none) : s.badFrameAt p os = s.onPort p PortRec.countFrameError := by
  by_cases hfail : frameCheckGood os = false ∧ (octetAt os 0).toNat = 3
  · have hnone : (frameTag? os).bind ((s.onPort p PortRec.countFrameError).tagged? p) = none := by
      rcases h with h | h | h | h
      · simp [h] at hfail
      · exact absurd hfail.2 h
      · rw [frameTag?, if_neg (by omega), Option.bind_none]
      · unfold frameTag?
        split
        · exact h
        · rfl
    simp only [State.badFrameAt, hnone, ite_self]
  · exact if_neg hfail

/-- A failed data-out frame that names a request by its tag (R178). -/
structure FailedDataOut (s : State) (p : Port) (os : List Octet) (r : Request) : Prop where
  failed : frameCheckGood os = false
  dataOut : (octetAt os 0).toNat = 3
  long : 4 ≤ os.length
  named : s.tagged? p (octetAt os 1).toNat = some r

theorem FailedDataOut.bad (h : FailedDataOut s p os r) : isBadFrame os = true := by
  rw [isBadFrame, h.failed, Bool.false_and, Bool.not_false]

/-- A failed data-out frame is counted and fails the write it names (R104, R178). -/
theorem badFrameAt_write (h : FailedDataOut s p os r) (htakes : r.takesData = true) (hearly : r.earlyEnded = false)
    (hheld : r.held = none) :
    s.badFrameAt p os = s.close ((s.onPort p PortRec.countFrameError).frameErrorEnding r) := by
  have hnamed : (frameTag? os).bind ((s.onPort p PortRec.countFrameError).tagged? p) = some r := by
    rw [frameTag?, if_pos h.long, Option.bind_some]
    exact h.named
  simp only [State.badFrameAt, hnamed, h.failed, h.dataOut, htakes, hearly, hheld, Option.isNone_none, and_self, if_true]

end

/-- Settles O41: none of these frames reaches a request that takes data, so each is counted and changes nothing more. -/
theorem framesCounted : Obligations.FramesCounted := by
  intro p s hpow hon err
  refine ⟨fun os hbad h => ?_, fun tag index b hnone => ?_, fun tag index b r htag hno => ?_⟩
  · rw [exec_badFrame hpow hon hbad, badFrameAt_unnamed h]
    rfl
  · simp only [exec_dataOut hpow hon, State.dataOutFrame, hnone]
    rfl
  · simp only [exec_dataOut hpow hon, State.dataOutFrame, htag, hno, if_true]
    rfl

section
variable {s t : State} {p : Port} {r : Request} {e : Ending} {os : List Octet} {tag : Octet} {index : Word16} {b : Block}

/-! #### Endings from the port side (R104, R105, R125) -/

/-- A request that takes the port's data: reported when it ends, nothing pending on it, a block still to come. -/
structure Receives (r : Request) : Prop where
  takes : r.takesData = true
  reported : r.earlyEnded = false
  unheld : r.held = none
  uncancelled : r.cancelPending = false
  awaits : r.arrived < r.count

/-- The ending of a failed data path: the first block not received is named (R67). -/
def missingEnding (r : Request) (d : Detail) : Ending := Ending.at .ended d (r.blockAddr r.arrived)

/-- A request's record with an ending held for its end, its timers stopped (R104, R105, R125). -/
def halted (r : Request) (e : Ending) : Request := { r.stopTimers with held := some e }

theorem standsAs_halted : StandsAs (halted r e) r := by
  constructor <;> rfl

/-- A request with a block or an operation in progress is in no queue. -/
theorem unqueued_of_busy (h : r.state = .transferring ∨ r.state = .sparing) : r.state ≠ .queued := by
  rcases h with h | h <;> rw [h] <;> nofun

/-- Nothing follows where an ending is held. -/
theorem close_portEnding_held (hq : s.quiet) (he : s.entry r) (h : Receives r)
    (hst : r.state = .transferring ∨ r.state = .sparing) :
    t.close (s.portEnding r.rid e) = (s.withRequest (halted r e)).flush := by
  have hheld : s.portEnding r.rid e = s.putRequest (halted r e) := by
    simp only [State.portEnding, request?_entry he, h.uncancelled, h.unheld, hst, Option.isSome_none, Bool.false_eq_true,
      or_self, if_false, if_true]
    rfl
  rw [hheld, standsAs_halted.put he, close_quiet (standsAs_halted.quiet hq he (unqueued_of_busy hst))]

theorem portEnding_ends (he : s.entry r) (h : Receives r) (htrans : r.state ≠ .transferring) (hspare : r.state ≠ .sparing) :
    s.portEnding r.rid e = s.conclude r.rid e := by
  simp only [State.portEnding, request?_entry he, h.uncancelled, h.unheld, htrans, hspare, Option.isSome_none,
    Bool.false_eq_true, or_self, if_false]

/-- The state with a free value used up (log entry 5). -/
def freeTaken (s : State) : State := { s with freeCount := s.freeCount + 1 }

theorem frameErrorEnding_eq (h : Receives r) :
    s.frameErrorEnding r = (freeTaken s).portEnding r.rid (missingEnding r .dataFrameError) := by
  rw [State.frameErrorEnding, State.firstMissing, if_pos h.awaits]
  rfl

/-! #### The three failures (R104, R105, R178) -/

/-- A data-out frame out of order fails the request (R104). -/
theorem exec_dataOut_disordered (hpow : s.powered = true) (hon : (s.port p).online = true) (h : Receives r)
    (htag : s.tagged? p tag.toNat = some r) (hindex : index.toNat ≠ r.arrived) : exec (.dataOut p tag index b) s =
      .next (s.close ((freeTaken s).portEnding r.rid (missingEnding r .dataFrameError))) := by
  have hrefused : r.accepts index.toNat = false := by simp [Request.accepts, hindex]
  rw [exec_dataOut hpow hon, ← frameErrorEnding_eq h]
  simp [State.dataOutFrame, htag, h.takes, h.reported, h.unheld, State.dataOutFor, hrefused]

/-- A failed data-out frame fails the request it names, and is counted (R104, R178). -/
theorem exec_badFrame_write (hpow : s.powered = true) (hon : (s.port p).online = true) (h : Receives r)
    (hf : FailedDataOut s p os r) : exec (.badFrame p os) s = .next (s.close
      ((freeTaken (s.onPort p PortRec.countFrameError)).portEnding r.rid (missingEnding r .dataFrameError))) := by
  rw [exec_badFrame hpow hon hf.bad, badFrameAt_write hf h.takes h.reported h.unheld, frameErrorEnding_eq h]

/-- A request's record with one half's data-wait timer stopped. -/
def timedOut (r : Request) (one : Bool) : Request := r.setHalf one { r.half one with timer := none }

theorem standsAs_timedOut (one : Bool) : StandsAs (timedOut r one) r := standsAs_setHalf ..

theorem halted_timedOut (r : Request) (one : Bool) (e : Ending) : halted (timedOut r one) e = halted r e := by
  cases one <;> rfl

theorem receives_timedOut (h : Receives r) (one : Bool) : Receives (timedOut r one) := by
  cases one <;> exact ⟨h.takes, h.reported, h.unheld, h.uncancelled, h.awaits⟩

/-- The expiry of a half's data-wait timer fails the request (R105). -/
theorem exec_dataWaitExpiry {n : Fin 16} {half : Fin 2} (hpow : s.powered = true) (he : s.entry r)
    (htag : s.tagged? p n.val = some r) (htimer : (r.half (decide (half = 1))).timer ≠ none) :
    exec (.dataWaitExpiry p n half) s = .next (s.close (State.portEnding
      (s.withRequest (timedOut r (decide (half = 1)))) r.rid (missingEnding r .dataLate))) := by
  obtain ⟨t, ht⟩ := Option.ne_none_iff_exists'.1 htimer
  show execDataWaitExpiry p n half s = _
  rw [← (standsAs_timedOut _).put he]
  simp only [execDataWaitExpiry, live_powered hpow, htag, State.waitExpiry, ht]
  rfl

/-- An ending held as a half's timer expires stops that timer with the others. -/
theorem close_portEnding_timedOut (hq : s.quiet) (he : s.entry r) (h : Receives r)
    (hst : r.state = .transferring ∨ r.state = .sparing) (one : Bool) :
    s.close ((s.withRequest (timedOut r one)).portEnding r.rid e) = (s.withRequest (halted r e)).flush := by
  have h1 := standsAs_timedOut (r := r) one
  have hquiet := h1.quiet hq he (unqueued_of_busy hst)
  have hclose := close_portEnding_held (t := s) (e := e) hquiet (h1.replaced he) (receives_timedOut h one) (by rwa [h1.state])
  rwa [halted_timedOut, withRequest_withRequest (h1.rid.trans standsAs_halted.rid.symm), h1.rid] at hclose

theorem portEnding_timedOut_ends (he : s.entry r) (h : Receives r) (htrans : r.state ≠ .transferring)
    (hspare : r.state ≠ .sparing) (one : Bool) :
    (s.withRequest (timedOut r one)).portEnding r.rid e = (s.withRequest (timedOut r one)).conclude r.rid e := by
  have h1 := standsAs_timedOut (r := r) one
  have hends := portEnding_ends (e := e) (h1.replaced he) (receives_timedOut h one) (h1.state.trans_ne htrans)
    (h1.state.trans_ne hspare)
  rwa [h1.rid] at hends

end

/-- Settles O43: each failure is an ending from the port side, held in TRANSFERRING and SPARING and made at once otherwise. -/
theorem portFailureHeld : Obligations.PortFailureHeld := by
  constructor
  · intro p r s hpow hon hq hplain htakes hheld hcancel hst hless held
    obtain ⟨hentry, hearly, -⟩ := hplain
    have h : Receives r := ⟨htakes, hearly, hheld, hcancel, hless⟩
    refine ⟨fun tag index b htag hindex => ?_, fun os hbad hkind hlong htag => ?_, fun tag half htag htimer => ?_⟩
    · rw [exec_dataOut_disordered hpow hon h htag hindex, close_portEnding_held (s := freeTaken s) hq hentry h hst]
      rfl
    · rw [exec_badFrame_write hpow hon h ⟨hbad, hkind, hlong, htag⟩,
        close_portEnding_held (s := freeTaken (s.onPort p PortRec.countFrameError)) hq hentry h hst]
      rfl
    · rw [exec_dataWaitExpiry hpow hentry htag htimer, close_portEnding_timedOut hq hentry h hst]
      rfl
  · intro p r s hpow hon hsingle htakes hheld hcancel htrans hspare hless ended
    obtain ⟨hentry, hearly, -⟩ := hsingle
    have h : Receives r := ⟨htakes, hearly, hheld, hcancel, hless⟩
    refine ⟨fun tag index b htag hindex => ?_, fun os hbad hkind hlong htag => ?_, fun tag half htag htimer => ?_⟩
    · rw [exec_dataOut_disordered hpow hon h htag hindex, portEnding_ends (s := freeTaken s) hentry h htrans hspare]
      rfl
    · rw [exec_badFrame_write hpow hon h ⟨hbad, hkind, hlong, htag⟩,
        portEnding_ends (s := freeTaken (s.onPort p PortRec.countFrameError)) hentry h htrans hspare]
      rfl
    · rw [exec_dataWaitExpiry hpow hentry htag htimer, portEnding_timedOut_ends hentry h htrans hspare]
      rfl

end Sys2Proof.Proofs

/-! ### Blocks delivered by data-in frames, and the read timer (R102, R106, R109, R146) -/

namespace Sys2Proof.Proofs
open Sys2Proof Sys2Proof.Machine Sys2Proof.Laws

section
variable {s : State} {p : Port} {r : Request}

/-- A read's record with the lowest undelivered block delivered (R102, R109, R146). -/
def delivered (r : Request) : Request :=
  { r with
    blocksDone := r.blocksDone + 1, marks := r.marks.filter (· != r.blocksDone)
    recovered := if r.blocksDone ∈ r.marks then r.recovered + 1 else r.recovered }

/-- What draining leaves: one half at most is changed (R102). -/
theorem drained_halves (q : Request) : ∃ h0 h1, q.drained = { q with half0 := h0, half1 := h1 } := by
  unfold Request.drained
  dsimp only
  split
  · unfold Request.setHalf
    split
    · exact ⟨q.half0, _, rfl⟩
    · exact ⟨_, q.half1, rfl⟩
  · exact ⟨q.half0, q.half1, rfl⟩

theorem standsAs_drained : StandsAs (delivered r).drained r := by
  obtain ⟨h0, h1, heq⟩ := drained_halves (delivered r)
  rw [heq]
  constructor <;> rfl

/-- A block delivered (R102): the record replaced, and the read ended where it was the last and no cancel pends. -/
theorem deliver_eq (he : s.entry r) (hd : r.detached = false) (hc : r.cancelPending = false) :
    s.deliver r.rid r.blocksDone =
      let q := (delivered r).drained
      let u := s.withRequest (r.retime q (s.port r.port).settings.waitTimer)
      if r.blocksDone + 1 = r.count then u.conclude r.rid q.doneEnding else u := by
  have hput : s.putData r (delivered r).drained =
      s.withRequest (r.retime (delivered r).drained (s.port r.port).settings.waitTimer) :=
    (standsAs_retime standsAs_drained r).put he
  have hlast : ((delivered r).drained.blocksDone = (delivered r).drained.count
      ∧ (delivered r).drained.cancelPending = false) ↔ r.blocksDone + 1 = r.count := by
    obtain ⟨h0, h1, heq⟩ := drained_halves (delivered r)
    rw [heq]
    exact and_iff_left hc
  have hrecord : ({ r with
      blocksDone := r.blocksDone + 1, marks := r.marks.filter (· != r.blocksDone)
      recovered := if r.marks.contains r.blocksDone then r.recovered + 1 else r.recovered } : Request) = delivered r := by
    simp only [delivered, List.contains_iff_mem]
  unfold State.deliver
  rw [request?_entry he]
  dsimp only
  rw [if_neg (by simp [hd]), hrecord, hput, if_congr hlast rfl rfl]

theorem exec_dataInSent {n tag index : Nat} {b : Block} (hpow : s.powered = true)
    (hs : (s.port p).sending = some (.dataIn n tag index b)) : exec (.dataInSent p) s =
      .next (s.close ((sentOff s p).deliver n index)) := by
  show execDataInSent p s = _
  simp only [execDataInSent, live_powered hpow, hs]
  rfl

/-- A read's record with its timer stopped. -/
def untimed (r : Request) : Request := { r with readTimer := none }

theorem standsAs_untimed : StandsAs (untimed r) r := by
  constructor <;> rfl

/-- The expiry of a read's timer ends it (R106). -/
theorem exec_readTimerExpiry {n : Fin 16} (hpow : s.powered = true) (he : s.entry r) (htag : s.tagged? p n.val = some r)
    (htimer : r.readTimer ≠ none) (hc : r.cancelPending = false) : exec (.readTimerExpiry p n) s = .next (s.close
      ((s.withRequest (untimed r)).conclude r.rid (Ending.make .ended .portOverrun))) := by
  obtain ⟨t, ht⟩ := Option.ne_none_iff_exists'.1 htimer
  have hexpiry : s.readExpiry r =
      s.close ((s.putRequest (untimed r)).conclude r.rid (Ending.make .ended .portOverrun)) := by
    unfold State.readExpiry
    rw [ht]
    exact if_neg (by simp [hc])
  show execReadTimerExpiry p n s = _
  simp only [execReadTimerExpiry, live_powered hpow, htag, hexpiry, standsAs_untimed.put he]

end

/-- Settles O44: the delivered block's record replaces the read's, the last delivery ends it DONE, and the timer's expiry
PORT_OVERRUN. -/
theorem readsDelivered : Obligations.ReadsDelivered := by
  intro p r s hpow hkind hcancel
  refine ⟨?_, fun tag htag htimer hends => ?_⟩
  · intro rid tag index b hsend hrid hdone hplain one h q₀ q u
    subst hrid hdone
    obtain ⟨hentry, -, hdetached, -⟩ := hplain
    have hstands : StandsAs (r.retime (delivered r).drained (s.port r.port).settings.waitTimer) r :=
      standsAs_retime standsAs_drained r
    have hdeliver := deliver_eq (s := sentOff s p) hentry hdetached hcancel
    rw [settings_sentOff] at hdeliver
    refine ⟨fun hmore hq hst => ?_, fun hlast hends => ?_⟩
    · have hquiet : u.quiet := hstands.quiet (s := sentOff s p) hq hentry hst
      rw [exec_dataInSent hpow hsend, hdeliver, if_neg hmore]
      exact congrArg _ (close_quiet hquiet)
    · rw [exec_dataInSent hpow hsend, hdeliver, if_pos hlast]
      exact congrArg _ (hstands.close_conclude (s := sentOff s p) hends)
  · have ⟨_, ⟨hentry, _⟩, _⟩ := hends
    rw [exec_readTimerExpiry hpow hentry htag htimer hcancel, standsAs_untimed.close_conclude hends]
    rfl

end Sys2Proof.Proofs
/-! ### Endings that a record's progress has no part in (R55, R56, R63, R65) -/

namespace Sys2Proof.Proofs
open Sys2Proof Sys2Proof.Machine Sys2Proof.Laws

section
variable {s : State} {q r : Request} {e : Ending}

/-- Two records of one request that its ending reads alike: what is reported, who is told, what is given back (R63 to R67). -/
structure EndsAlike (q r : Request) : Prop where
  rid : q.rid = r.rid
  port : q.port = r.port
  tag : q.tag = r.tag
  drive : q.drive = r.drive
  kind : q.kind = r.kind
  extent : q.extent = r.extent
  reachedArm : q.reachedArm = r.reachedArm
  residual : q.residual = r.residual
  recovered : q.recovered = r.recovered
  late : q.earlyEnded = false ∧ r.earlyEnded = false
  told : q.detached = false ∧ r.detached = false
  unchained : q.state ≠ .waitingChain ∧ r.state ≠ .waitingChain

theorem EndsAlike.reportEnding (a : EndsAlike q r) (b : Body) :
    (s.withRequest q).reportEnding q e b = (s.reportEnding r e b).withRequest q := by
  have hreport : endingReport (s.withRequest q) q e b = endingReport s r e b := by
    simp only [endingReport, a.tag, a.kind, a.residual, a.recovered, a.port, a.drive]
    rfl
  unfold State.reportEnding
  rw [hreport, a.port]
  rfl

theorem EndsAlike.windowsMet (a : EndsAlike q r) : windowsMet (s.withRequest q) q = windowsMet s r := by
  unfold Proofs.windowsMet
  rw [a.reachedArm, a.port, a.drive, a.kind, a.extent]
  rfl

theorem EndsAlike.marked (a : EndsAlike q r) (s : State) : EndsAlike (marked s q) (marked s r) := by
  unfold Proofs.marked windowed
  rw [a.reachedArm]
  split
  · exact ⟨a.rid, a.port, a.tag, a.drive, a.kind, a.extent, rfl, a.residual, a.recovered, a.late, a.told, a.unchained⟩
  · exact a

/-- Steps 1 to 3 of an ending leave the same but for the request's own record. -/
theorem EndsAlike.toldEnding (a : EndsAlike q r) (h : s.entry r) :
    toldEnding (s.withRequest q) q e = (toldEnding s r e).withRequest (Proofs.marked s q) := by
  have hentry : ((s.reportEnding r e .none).withRequest q).entry q :=
    entry_withRequest (s := s.reportEnding r e .none) h a.rid (a.kind ▸ h.2.2)
  have hmark : Proofs.marked ((s.reportEnding r e .none).withRequest q) q = Proofs.marked s q := rfl
  have hmet : Proofs.windowsMet ((s.reportEnding r e .none).withRequest q) q = Proofs.windowsMet (s.reportEnding r e .none) r :=
    a.windowsMet (s := s.reportEnding r e .none)
  have htold : ∀ (t : State) ms, windowsTold t q ms = windowsTold t r ms := fun t ms => by
    unfold windowsTold
    rw [a.port, a.tag]
  have hafter : ((s.reportEnding r e .none).withRequest q).reportAfter q =
      ((s.reportEnding r e .none).reportAfter r).withRequest (Proofs.marked s q) := by
    rw [reportAfter_eq hentry, reportAfter_eq (s := s.reportEnding r e .none) h, hmark, hmet, htold,
      withRequest_withRequest (marked_keeps s q).1.symm, ← windowsTold_withRequest,
      withRequest_withRequest ((marked_keeps _ r).1.trans (a.rid.symm.trans (marked_keeps s q).1.symm))]
  unfold Proofs.toldEnding
  rw [a.reportEnding, hafter, a.port, a.rid]
  rfl

/-- The entry of the ending request goes alike. -/
theorem EndsAlike.leaveTable (a : EndsAlike q r) (h : s.entry r) :
    (s.withRequest q).leaveTable r.rid = s.leaveTable r.rid := by
  have hreq : s.request? q.rid = some r := a.rid ▸ request?_entry h
  have hleave := leaveTable_withRequest_same hreq a.rid a.drive (a.kind ▸ h.2.2) h.2.2 a.late.1 a.late.2 h.1
  rwa [a.rid] at hleave

theorem EndsAlike.endDone (a : EndsAlike q r) (h : s.entry r) (hc : e.cls = .done) :
    (s.withRequest q).endDone q e .none = s.endDone r e .none := by
  have htold : ∀ (u : State) x, u.reportDone x e .none = Proofs.toldEnding u x e := fun u x => by
    rw [Proofs.toldEnding, if_pos hc]
    rfl
  have hleave := (a.marked s).leaveTable (toldEnding_entry h e)
  rw [(marked_keeps s r).1] at hleave
  unfold State.endDone
  rw [htold, htold, a.toldEnding h, a.rid, hleave]

theorem EndsAlike.endBroken (a : EndsAlike q r) (h : s.entry r) (hc : e.cls ≠ .done) :
    (s.withRequest q).endBroken q e .none = s.endBroken r e .none := by
  have hbroken : ∀ (u : State) x, u.endBroken x e .none =
      ((Proofs.toldEnding u x e).breakChain (Proofs.toldEnding u x e).table.length x.rid).leaveTable x.rid := fun u x => by
    rw [Proofs.toldEnding, if_neg hc]
    rfl
  have b := a.marked s
  have hlength : ((Proofs.toldEnding s r e).withRequest (Proofs.marked s q)).table.length =
      (Proofs.toldEnding s r e).table.length := List.length_map _
  rw [hbroken, hbroken, a.toldEnding h, hlength, a.rid]
  obtain ⟨hchain, hentry⟩ := breakChain_withRequest (toldEnding_entry h e) b.unchained.2 b.rid b.unchained.1
    (Proofs.toldEnding s r e).table.length r.rid
  have hleave := b.leaveTable hentry
  rw [(marked_keeps s r).1] at hleave
  rw [hchain, hleave]

/-- A record put in a request's place before its ending, that the ending reads alike, makes no difference to it. -/
theorem EndsAlike.conclude (a : EndsAlike q r) (h : s.entry r) : (s.withRequest q).conclude r.rid e = s.conclude r.rid e := by
  have hentry : (s.withRequest q).entry q := entry_withRequest h a.rid (a.kind ▸ h.2.2)
  have hnew := conclude_entry (e := e) hentry a.told.1
  have hold := conclude_entry (e := e) h a.told.2
  rw [a.rid, if_neg (by simp [a.late.1])] at hnew
  rw [if_neg (by simp [a.late.2])] at hold
  rw [hnew, hold]
  split
  · next hc => exact a.endDone h hc
  · next hc => exact a.endBroken h hc

end

end Sys2Proof.Proofs

/-! ### Suspect tables (R147) -/

namespace Sys2Proof.Proofs
open Sys2Proof Sys2Proof.Machine Sys2Proof.Laws

section
variable {ss : List Suspect} {t u : Nat}

theorem tallyOf_cons (x : Suspect) : tallyOf (x :: ss) t = if x.track = t then x.tally else tallyOf ss t := by
  by_cases hx : x.track = t <;> simp [tallyOf, hx]

theorem tallyOf_append_single (x : Suspect) :
    tallyOf (ss ++ [x]) t = if t ∈ ss.map (·.track) then tallyOf ss t else if x.track = t then x.tally else 0 := by
  induction ss with
  | nil => exact tallyOf_cons x
  | cons y ys ih =>
    rw [List.cons_append, tallyOf_cons, tallyOf_cons, ih, List.map_cons]
    by_cases hy : y.track = t
    · simp [hy]
    · simp only [List.mem_cons, Ne.symm hy, false_or, hy, if_false]

theorem tallyOf_absent (h : t ∉ ss.map (·.track)) : tallyOf ss t = 0 := by
  induction ss with
  | nil => rfl
  | cons y ys ih =>
    obtain ⟨hy, hys⟩ := not_or.1 (mt List.mem_cons.2 h)
    rw [tallyOf_cons, if_neg (Ne.symm hy), ih hys]

/-- A suspect with its tally raised where it is the track's. -/
def raisedAt (t : Nat) (x : Suspect) : Suspect := if x.track = t then { x with tally := min 15 (x.tally + 1) } else x

theorem raisedAt_track (x : Suspect) : (raisedAt t x).track = x.track := by
  unfold raisedAt
  split <;> rfl

theorem map_raisedAt_track : (ss.map (raisedAt t)).map (·.track) = ss.map (·.track) := by
  rw [List.map_map]
  exact List.map_congr_left fun x _ => raisedAt_track x

theorem raiseTally_listed (h : t ∈ ss.map (·.track)) : raiseTally ss t = ss.map (raisedAt t) := by
  have hany : (ss.any fun x => decide (x.track = t)) = true := by simpa [List.any_eq_true] using h
  rw [raiseTally, if_pos hany]
  rfl

theorem not_any_track (h : t ∉ ss.map (·.track)) : ¬(ss.any fun x => decide (x.track = t)) = true := by
  simpa [List.any_eq_true] using h

theorem raiseTally_roomy (h : t ∉ ss.map (·.track)) (hroom : ss.length < 16) :
    raiseTally ss t = ss ++ [{ track := t, tally := 1 }] := by
  rw [raiseTally, if_neg (not_any_track h), if_pos hroom]

theorem raiseTally_crowded {low : Suspect} (h : t ∉ ss.map (·.track)) (hfull : ¬ss.length < 16)
    (hlow : leastBy (fun x => (x.tally : Int)) ss = some low) :
    raiseTally ss t = ss.erase low ++ [{ track := t, tally := 1 }] := by
  rw [raiseTally, if_neg (not_any_track h), if_neg hfull, hlow]

theorem tallyOf_raised_same (h : t ∈ ss.map (·.track)) : tallyOf (ss.map (raisedAt t)) t = min 15 (tallyOf ss t + 1) := by
  induction ss with
  | nil => cases h
  | cons x xs ih =>
    rw [List.map_cons, tallyOf_cons, tallyOf_cons, raisedAt_track]
    by_cases hx : x.track = t
    · rw [if_pos hx, if_pos hx, raisedAt, if_pos hx]
    · rw [if_neg hx, if_neg hx, ih ((List.mem_cons.1 h).resolve_left (Ne.symm hx))]

theorem tallyOf_raised_other (h : u ≠ t) : tallyOf (ss.map (raisedAt t)) u = tallyOf ss u := by
  induction ss with
  | nil => rfl
  | cons x xs ih =>
    rw [List.map_cons, tallyOf_cons, tallyOf_cons, raisedAt_track, ih]
    by_cases hx : x.track = u
    · rw [if_pos hx, if_pos hx, raisedAt, if_neg (hx.trans_ne h)]
    · rw [if_neg hx, if_neg hx]

/-- In a full table a track joins in place of the first of those with the least tally. -/
theorem raiseTally_full (h : t ∉ ss.map (·.track)) (hfull : ss.length = 16) : ∃ earlier x later, ss = earlier ++ x :: later
    ∧ (∀ y ∈ earlier, x.tally < y.tally) ∧ (∀ y ∈ later, x.tally ≤ y.tally)
    ∧ raiseTally ss t = earlier ++ later ++ [{ track := t, tally := 1 }] := by
  cases hlow : leastBy (fun x => (x.tally : Int)) ss with
  | none => simp [leastBy_eq_none.1 hlow] at hfull
  | some low =>
    obtain ⟨earlier, later, rfl, hearlier, hlater⟩ := leastBy_eq_some hlow
    have hnew : low ∉ earlier := fun hmem => absurd (hearlier low hmem) (lt_irrefl _)
    refine ⟨earlier, low, later, rfl, fun y hy => Int.ofNat_lt.1 (hearlier y hy), fun y hy => Int.ofNat_le.1 (hlater y hy), ?_⟩
    rw [raiseTally_crowded h (by omega) hlow, List.erase_append_right _ hnew, List.erase_cons_head]

theorem nodup_append_track (h : (ss.map (·.track)).Nodup) (ht : t ∉ ss.map (·.track)) :
    ((ss ++ [({ track := t, tally := 1 } : Suspect)]).map (·.track)).Nodup := by
  rw [List.map_append]
  exact List.Nodup.append h (List.nodup_singleton t) (by simpa using ht)

/-- What raising a track's tally leaves of a suspect table, every case (R147). -/
theorem raiseTally_spec (hnodup : (ss.map (·.track)).Nodup) (hlen : ss.length ≤ 16) :
    (raiseTally ss t).length ≤ 16 ∧ ((raiseTally ss t).map (·.track)).Nodup
      ∧ (t ∈ ss.map (·.track) → tallyOf (raiseTally ss t) t = min 15 (tallyOf ss t + 1)
          ∧ ∀ u, u ≠ t → tallyOf (raiseTally ss t) u = tallyOf ss u)
      ∧ (t ∉ ss.map (·.track) → tallyOf (raiseTally ss t) t = 1
          ∧ (ss.length < 16 → ∀ u, u ≠ t → tallyOf (raiseTally ss t) u = tallyOf ss u)
          ∧ (ss.length = 16 → ∃ earlier x later, ss = earlier ++ x :: later ∧ (∀ y ∈ earlier, x.tally < y.tally)
              ∧ (∀ y ∈ later, x.tally ≤ y.tally) ∧ raiseTally ss t = earlier ++ later ++ [{ track := t, tally := 1 }])) := by
  by_cases ht : t ∈ ss.map (·.track)
  · rw [raiseTally_listed ht, map_raisedAt_track, List.length_map]
    exact ⟨hlen, hnodup, fun _ => ⟨tallyOf_raised_same ht, fun u hu => tallyOf_raised_other hu⟩, fun hno => absurd ht hno⟩
  · rcases Nat.lt_or_eq_of_le hlen with hroom | hfull
    · have hraise : raiseTally ss t = ss ++ [{ track := t, tally := 1 }] := raiseTally_roomy ht hroom
      rw [hraise]
      refine ⟨by simpa using hroom, nodup_append_track hnodup ht, fun hyes => absurd hyes ht, fun _ => ⟨?_, fun _ u hu => ?_,
        fun hfull => absurd hfull (Nat.ne_of_lt hroom)⟩⟩
      · rw [tallyOf_append_single, if_neg ht, if_pos rfl]
      · rw [tallyOf_append_single, if_neg (Ne.symm hu)]
        split
        · rfl
        · next hno => exact (tallyOf_absent hno).symm
    · obtain ⟨earlier, x, later, rfl, hearlier, hlater, hraise⟩ := raiseTally_full ht hfull
      rw [hraise]
      have hsub : (earlier ++ later).Sublist (earlier ++ x :: later) :=
        List.Sublist.append_left (List.sublist_cons_self x later) earlier
      have hnew : t ∉ (earlier ++ later).map (·.track) := fun hmem => ht ((hsub.map _).subset hmem)
      refine ⟨?_, nodup_append_track (hnodup.sublist (hsub.map _)) hnew, fun hyes => absurd hyes ht, fun _ => ⟨?_,
        fun hroom => absurd hfull (Nat.ne_of_lt hroom), fun _ => ⟨earlier, x, later, rfl, hearlier, hlater, rfl⟩⟩⟩
      · simp only [List.length_append, List.length_cons, List.length_nil] at hfull ⊢
        omega
      · rw [tallyOf_append_single, if_neg hnew, if_pos rfl]

end

end Sys2Proof.Proofs

/-! ### A block of a data request that fails (R126, R138 to R143) -/

namespace Sys2Proof.Proofs
open Sys2Proof Sys2Proof.Machine Sys2Proof.Laws

section
variable {s u w : State} {d : Drive} {n : Fin 24} {m : Nat} {read : SurfaceRead} {r q x : Request} {l : Leg} {c : Condition}
  {found : Sector} {b : Bool}

/-! #### The condition a data leg's sector ends with -/

/-- The condition of a sector of a data leg, as the recovery unit takes it (R98, R111). -/
def dataCondition (dr : DriveRec) (r : Request) (l : Leg) (found : Sector) : Option Condition :=
  if r.writeLeg = true then idCondition found.id dr.curCyl dr.head l.sector l.expect
  else if r.kind = .writeAndCheck then checkLegCondition dr l found r.blockToWrite
  else readCondition found dr.curCyl dr.head l.sector l.expect

theorem writeLeg_iff : r.writeLeg = true ↔ r.kind = .writeBlocks ∨ r.kind = .writeAndCheck ∧ r.checking = false := by
  unfold Request.writeLeg
  split
  · next hk => simp [hk]
  · next hk => simp [hk]
  · next hwrite hpair => exact iff_of_false nofun fun h => h.elim hwrite fun hboth => hpair hboth.1

/-- A block that fails leaves its path and its leg, and goes to the unit that takes the condition (R98, R138). -/
theorem blockFails_onPath0 (hpath : w.onPath0 r) (he : w.entry r) (hop : r.op = none) (hp : r.pendingEnding = none)
    (k : State → State) : w.blockFails r k = k (w.path0Handed.withRequest (restated r .positioned .idle)) := by
  unfold State.blockFails
  rw [hop, hp, releaseLeg_onPath0 hpath he hop]

/-- A sector of a data leg that fails goes to the recovery unit (R138). -/
theorem exec_dataFails (h : s.onSector d r) (hpath : s.onPath0 r) (hdata : dataLegged r) (ht : r.trial = none)
    (hc : dataCondition (s.drive d) r (s.leg r) ((s.drive d).found (s.leg r).sector read) = some c) :
    exec (.sectorEvent d n read) s = .next (s.close
      (((atMark s d n).path0Handed.withRequest (restated r .positioned .idle)).dataFails d r.rid c)) := by
  obtain ⟨hentry, -, -, -, -, hpend⟩ := onSector_facts h
  have hfails := blockFails_onPath0 (w := atMark s d n) hpath hentry hdata.1 hpend fun s => s.dataFails d r.rid c
  rw [exec_dataSector h hdata, ← hfails]
  unfold dataCondition at hc
  by_cases hw : r.writeLeg = true
  · rw [if_pos hw] at hc ⊢
    simp only [State.writeSectorEnds, atMark_drive, hc]
  · rw [if_neg hw] at hc ⊢
    unfold State.readSectorEnds
    simp only [atMark_drive, adopt_untried ht, ite_self]
    by_cases hk : r.kind = .writeAndCheck
    · rw [if_pos hk] at hc
      have hcheck : checkLegCondition { s.drive d with sector := n.val, elapsed := 0 } (s.leg r)
        ((s.drive d).found (s.leg r).sector read) r.blockToWrite = some c := hc
      simp only [hk, decide_true, if_true, hcheck]
    · rw [if_neg hk] at hc
      simp only [hk, decide_false, Bool.false_eq_true, if_false, hc]

/-! #### The record of a request whose block has failed -/

/-- A request's record with a failure of its present block noted (R146). -/
def noteIn (r : Request) (b : Bool) : Request := { r with failed := noteFailure r.failed r.workBlock b }

/-- A WRITE AND CHECK whose check leg goes back to recording from its next block (R142). -/
def backToWrite (r : Request) : Request := { r with checking := false, writePos := r.nextBlock }

/-- A request's record after a failed block that is to be read or written again (R139, R142, R146). -/
def afterFailure (r : Request) : Request :=
  if r.kind = .writeAndCheck ∧ r.checking = true then backToWrite (noteIn r true) else noteIn r true

theorem afterFailure_of_checking (h : r.kind = .writeAndCheck ∧ r.checking = true) : afterFailure r = backToWrite (noteIn r true) :=
  if_pos h

theorem afterFailure_of_writing (h : r.writeLeg = true) : afterFailure r = noteIn r true :=
  if_neg fun hcheck => by
    rcases writeLeg_iff.1 h with hk | ⟨-, hk⟩
    · simp [hk] at hcheck
    · simp [hk] at hcheck

/-- What noting a failure keeps of a request's record. -/
theorem afterFailure_keeps (r : Request) : (afterFailure r).rid = r.rid ∧ (afterFailure r).kind = r.kind
    ∧ (afterFailure r).op = r.op ∧ (afterFailure r).label = r.label ∧ (afterFailure r).format = r.format
    ∧ (afterFailure r).addr = r.addr ∧ (afterFailure r).retries = r.retries := by
  unfold afterFailure
  split <;> exact ⟨rfl, rfl, rfl, rfl, rfl, rfl, rfl⟩

theorem workBlock_afterFailure (r : Request) : (afterFailure r).workBlock = r.workBlock := by
  unfold afterFailure
  split
  · next h => simp [backToWrite, noteIn, Request.workBlock, h]
  · rfl

/-- The failures noted have no part in how the request ends. -/
theorem endsAlike_noteIn (hl : r.earlyEnded = false) (hd : r.detached = false) (hw : r.state ≠ .waitingChain) (b : Bool) :
    EndsAlike (noteIn (restated r .positioned .idle) b) r :=
  ⟨rfl, rfl, rfl, rfl, rfl, rfl, rfl, rfl, rfl, ⟨hl, hl⟩, ⟨hd, hd⟩, nofun, hw⟩

theorem endsAlike_afterFailure (hl : r.earlyEnded = false) (hd : r.detached = false) (hw : r.state ≠ .waitingChain) :
    EndsAlike (afterFailure (restated r .positioned .idle)) r := by
  unfold afterFailure
  split
  · exact ⟨rfl, rfl, rfl, rfl, rfl, rfl, rfl, rfl, rfl, ⟨hl, hl⟩, ⟨hd, hd⟩, nofun, hw⟩
  · exact endsAlike_noteIn hl hd hw true

theorem presentAddr_dataLegged (hdata : dataLegged r) : r.presentAddr = addrOf (blockOf r.addr + r.workBlock) := by
  obtain ⟨hop, hlabel, hformat⟩ := hdata
  simp only [Request.presentAddr, hop, hlabel, hformat]
  rfl

/-- A block whose retries are spent ends its data request, in whatever record stands for it (R139, R143). -/
theorem spentRetries_ends (he : u.entry r) (a : EndsAlike q r) (hdata : dataLegged q) (haddr : q.addr = r.addr)
    (hwork : q.workBlock = r.workBlock) (det : Detail) : (u.withRequest q).spentRetries r.rid det =
      u.conclude r.rid (Ending.at .ended det (addrOf (blockOf r.addr + r.workBlock))) := by
  have hreq : (u.withRequest q).request? r.rid = some q := a.rid ▸ request?_entry (entry_withRequest he a.rid (a.kind ▸ he.2.2))
  unfold State.spentRetries
  rw [hreq]
  simp only [hdata.1, hdata.2.1, Option.isSome_none, Bool.false_eq_true, if_false, presentAddr_dataLegged hdata, haddr, hwork]
  exact a.conclude he

/-! #### Retries (R139, R140) -/

/-- The arm sent back to its stop for a request, to come again to its block (R28, R140). -/
def sentBack (u : State) (d : Drive) (q : Request) : State :=
  (u.withRequest { q with state := .recalibrating }).onDrive d fun dr =>
    { dr with tgtCyl := 0, arm := .recalibrating, recalTimer := some 500000, seekTimer := none, afterHome := .toBlock }

theorem recalibrateFor_sentBack (he : u.entry r) (hpath : u.pathless r.rid) (hid : q.rid = r.rid) (hk : q.kind = r.kind)
    (hop : q.op = none) : (u.withRequest q).recalibrateFor d r.rid .toBlock = sentBack u d q := by
  have hentry : (u.withRequest q).entry q := entry_withRequest he hid (hk ▸ he.2.2)
  have hsent := recalibrateFor_pathless (d := d) hentry (hid ▸ hpath) hop .toBlock
  have hone := withRequest_withRequest (s := u) (r := q) (q := { q with state := .recalibrating }) rfl
  rw [hone] at hsent
  rw [← hid]
  exact hsent

/-- A failed block is tried again, by way of the arm's stop at the mid-count, or its retries are spent (R139, R140). -/
theorem retryOr_eq {spent : State} (he : u.entry r) (hpath : u.pathless r.rid) (hid : q.rid = r.rid) (hk : q.kind = r.kind)
    (hop : q.op = none) : (u.withRequest q).retryOr d r.rid spent =
      if u.settings.retryLimit ≤ q.retries then spent
      else if 1 ≤ u.settings.retryLimit / 2 ∧ q.retries + 1 = u.settings.retryLimit / 2
        then sentBack u d { q with retries := q.retries + 1 }
        else u.withRequest { q with retries := q.retries + 1 } := by
  have hlabel : q.kind ≠ .labelUpdate := hk ▸ he.2.2
  have hreq : (u.withRequest q).request? r.rid = some q := hid ▸ request?_entry (entry_withRequest he hid hlabel)
  have hput : (u.withRequest q).onRequest r.rid (fun r => { r with retries := r.retries + 1 }) =
      u.withRequest { q with retries := q.retries + 1 } := by
    rw [onRequest_some hreq, putRequest_table (r := { q with retries := q.retries + 1 }) hlabel]
    exact withRequest_withRequest rfl
  have hreq' : (u.withRequest { q with retries := q.retries + 1 }).request? r.rid = some { q with retries := q.retries + 1 } :=
    hid ▸ request?_entry (entry_withRequest (q := { q with retries := q.retries + 1 }) he hid hlabel)
  have hback := recalibrateFor_sentBack (d := d) (q := { q with retries := q.retries + 1 }) he hpath hid hk hop
  unfold State.retryOr
  rw [hreq]
  dsimp only
  unfold State.retry
  rw [hput]
  dsimp only
  rw [hreq']
  dsimp only
  rw [hback]
  rfl

/-! #### Header, data and write checks (R126, R139, R142) -/

theorem mayAutoSpare_untried (ht : r.trial = none) (hw : r.kind = .writeBlocks ∨ r.kind = .writeAndCheck) :
    u.mayAutoSpare r = u.settings.autoSpare := by
  rcases hw with hk | hk <;> simp [State.mayAutoSpare, ht, hk]

theorem putRequest_noteIn (he : u.entry x) (b : Bool) :
    u.putRequest { x with failed := noteFailure x.failed x.workBlock b } = u.withRequest (noteIn x b) :=
  putRequest_table (r := noteIn x b) he.2.2

theorem onRequest_backToWrite (he : u.entry x) (b : Bool) :
    (u.withRequest (noteIn x b)).onRequest x.rid (fun q => { q with checking := false, writePos := q.nextBlock }) =
      u.withRequest (backToWrite (noteIn x b)) := by
  have hentry : (u.withRequest (noteIn x b)).entry (noteIn x b) := entry_withRequest he rfl he.2.2
  have hreq : (u.withRequest (noteIn x b)).request? x.rid = some (noteIn x b) := request?_entry hentry
  rw [onRequest_some hreq]
  refine (putRequest_table (r := backToWrite (noteIn x b)) he.2.2).trans ?_
  exact withRequest_withRequest rfl

/-- A header or data check, and a write check that asks for no sparing, note the failure and are retried, or the retries are
spent: a write leg then asks for a sparing where it may (R126, R139, R142). -/
theorem dataFails_retries (he : u.entry x) (ht : x.trial = none) (hc : c = .header ∨ c = .data
      ∨ c = .write ∧ (x.kind = .writeAndCheck ∧ x.checking = true) ∧ u.settings.autoSpare = false) :
    u.dataFails d x.rid c = (u.withRequest (afterFailure x)).retryOr d x.rid
      (if x.writeLeg = true ∧ u.settings.autoSpare = true then (u.withRequest (afterFailure x)).askSparing x.rid
        else (u.withRequest (afterFailure x)).spentRetries x.rid c.detail) := by
  have hspared : (x.writeLeg && u.mayAutoSpare x) = true ↔ x.writeLeg = true ∧ u.settings.autoSpare = true := by
    rw [Bool.and_eq_true]
    refine and_congr_right fun hw => ?_
    rw [mayAutoSpare_untried ht ((writeLeg_iff.1 hw).imp_right And.left)]
  have hafter : (if x.kind = .writeAndCheck ∧ x.checking = true then (u.withRequest (noteIn x true)).onRequest x.rid
      (fun q => { q with checking := false, writePos := q.nextBlock }) else u.withRequest (noteIn x true)) =
        u.withRequest (afterFailure x) := by
    unfold afterFailure
    rw [onRequest_backToWrite he]
    split <;> rfl
  unfold State.dataFails
  rw [request?_entry he]
  rcases hc with rfl | rfl | ⟨rfl, hchecks, hauto⟩
  · simp only [putRequest_noteIn he, hafter, hspared]
  · simp only [putRequest_noteIn he, hafter, hspared]
  · rw [if_pos hchecks] at hafter
    have hmay : ¬u.mayAutoSpare x = true := by simp [mayAutoSpare_untried ht (.inr hchecks.1), hauto]
    simp only [putRequest_noteIn he, hafter, hmay, hauto, Bool.false_eq_true, and_false, if_false]
    rfl

/-- A write check asks for a sparing at once with AUTO_SPARE on (R126). -/
theorem dataFails_writeCheck (he : u.entry x) (ht : x.trial = none) (hk : x.kind = .writeAndCheck)
    (hauto : u.settings.autoSpare = true) : u.dataFails d x.rid .write = (u.withRequest (noteIn x true)).askSparing x.rid := by
  unfold State.dataFails
  rw [request?_entry he]
  dsimp only
  rw [if_pos ((mayAutoSpare_untried ht (.inr hk)).trans hauto), putRequest_noteIn he]

/-- A void sector ends the request at once (R141). -/
theorem dataFails_void (he : u.entry x) (hdata : dataLegged x) : u.dataFails d x.rid .void =
    u.conclude x.rid (Ending.at .ended .voidSector (addrOf (blockOf x.addr + x.workBlock))) := by
  simp only [State.dataFails, request?_entry he, presentAddr_dataLegged hdata]

/-- A seek check: the drive's fault at the third, else the retries spent or the arm sent back (R143). -/
theorem dataFails_seek (he : u.entry x) (hpath : u.pathless x.rid) (hop : x.op = none) : u.dataFails d x.rid .seek =
    if 2 ≤ x.seekChecks then (u.withRequest (noteIn x false)).faultDrive d .repeatedSeekCheck (some (noteIn x false))
    else if u.settings.retryLimit ≤ x.retries then (u.withRequest (noteIn x false)).spentRetries x.rid .seekCheck
    else sentBack u d { noteIn x false with seekChecks := x.seekChecks + 1, retries := x.retries + 1 } := by
  have hentry : (u.withRequest (noteIn x false)).entry (noteIn x false) := entry_withRequest he rfl he.2.2
  have hreq : (u.withRequest (noteIn x false)).request? x.rid = some (noteIn x false) := request?_entry hentry
  have hput : (u.withRequest (noteIn x false)).putRequest
      { noteIn x false with seekChecks := x.seekChecks + 1, retries := x.retries + 1 } =
        u.withRequest { noteIn x false with seekChecks := x.seekChecks + 1, retries := x.retries + 1 } := by
    rw [putRequest_table (r := { noteIn x false with seekChecks := x.seekChecks + 1, retries := x.retries + 1 }) he.2.2]
    exact withRequest_withRequest rfl
  have hback := recalibrateFor_sentBack (d := d)
    (q := { noteIn x false with seekChecks := x.seekChecks + 1, retries := x.retries + 1 }) he hpath rfl rfl hop
  rw [← hback, ← hput]
  unfold State.dataFails
  rw [request?_entry he]
  dsimp only
  rw [putRequest_noteIn he]
  unfold State.seekCheck State.seekCheckThen
  rw [hreq]
  rfl

/-- A fan-out meets a request's record alike whatever its progress (R35, R38). -/
theorem fansPlainly_withRequest (h : s.fansPlainly d) (he : s.entry r) (hid : q.rid = r.rid) (hkind : q.kind = r.kind)
    (hdrive : q.drive = r.drive) (hport : q.port = r.port) (hextent : q.extent = r.extent) (hpred : q.pred = r.pred)
    (harm : q.reachedArm = r.reachedArm) (hstate : q.state ≠ .waitingChain) : (s.withRequest q).fansPlainly d := by
  obtain ⟨⟨hlen, hrise, hlow⟩, hlabel, hkinds, hplain⟩ := h
  have hrids : (s.withRequest q).table.map (·.rid) = s.table.map (·.rid) := by
    simp only [State.withRequest, List.map_map]
    exact List.map_congr_left fun y _ => by
      simp only [Function.comp]
      split
      · next hy => exact hy.symm
      · rfl
  have hold : ∀ y ∈ (s.withRequest q).table, y = q ∨ y ∈ s.table := fun y hy => by
    obtain ⟨z, hz, rfl⟩ := List.mem_map.1 hy
    split
    · exact .inl rfl
    · exact .inr hz
  have hpreds : ∀ m, (∀ z ∈ s.table, z.pred ≠ some m) → ∀ y ∈ (s.withRequest q).table, y.pred ≠ some m :=
    fun m hm => table_pred hm he.1 hpred
  refine ⟨⟨?_, hrids ▸ hrise, fun y hy => ?_⟩, hlabel, fun y hy => ?_, fun y hy hyd => ?_⟩
  · simpa [State.withRequest] using hlen
  · rcases hold y hy with rfl | hy
    · exact hid ▸ hlow r he.1
    · exact hlow y hy
  · rcases hold y hy with rfl | hy
    · exact hkind ▸ he.2.2
    · exact hkinds y hy
  · rcases hold y hy with rfl | hy
    · obtain ⟨-, hsucc, hwin⟩ := hplain r he.1 (hdrive ▸ hyd)
      refine ⟨hstate, hid ▸ hpreds r.rid hsucc, ?_⟩
      rw [harm, hport, hdrive, hkind, hextent]
      exact hwin
    · obtain ⟨hst, hsucc, hwin⟩ := hplain y hy hyd
      exact ⟨hst, hpreds y.rid hsucc, hwin⟩

end

end Sys2Proof.Proofs

/-! ### A block recovered (R146 to R148) -/

namespace Sys2Proof.Proofs
open Sys2Proof Sys2Proof.Machine Sys2Proof.Laws

section
variable {s w : State} {d : Drive} {n : Fin 24} {m : Nat} {read : SurfaceRead} {r q : Request} {l : Leg} {b : Bool} {x : Block}

theorem leg_onDrive {f : DriveRec → DriveRec} (hm : (f (s.drive d)).map = (s.drive d).map) (q : Request) :
    (s.onDrive d f).leg q = s.leg q :=
  leg_congr fun e => by
    by_cases hed : e = d
    · rw [hed, drive_onDrive_same, hm]
    · rw [drive_onDrive_other _ hed]

/-- A drive's record with a block recovered for a port: its count raised, and its track's tally where it is to blame
(R146 to R148). -/
def countRecovered (p : Port) (blames : Bool) (track : Nat) (dr : DriveRec) : DriveRec :=
  let x := ofPort dr.recCounts p
  { dr with
    recCounts := setOfPort dr.recCounts p { x with count := min 255 (x.count + 1) }
    suspects := if blames then raiseTally dr.suspects track else dr.suspects }

theorem raised_eq (p : Port) (b : Bool) (track : Nat) :
    (if b = true then (w.raiseRecovered p d).raiseSuspect d track else w.raiseRecovered p d) =
      w.onDrive d (countRecovered p b track) := by
  cases b with
  | false => rfl
  | true =>
    rw [if_pos rfl, State.raiseSuspect, State.raiseRecovered, onDrive_onDrive]
    rfl

/-- A read's record after a good block that had failed before (R109, R146). -/
def blockRecovered (r : Request) (x : Block) : Request :=
  { blockRead r x with readTimer := none, failed := [], marks := r.marks ++ [r.nextBlock] }

theorem blockRecovered_eq (r : Request) (x : Block) : blockRecovered r x =
    { r.setHalf r.curHalf { r.current with blocks := r.current.blocks ++ [x] } with
      nextBlock := r.nextBlock + 1, retries := 0, readTimer := none, failed := [], marks := r.marks ++ [r.nextBlock] } := by
  rw [setHalf_eq]
  rfl

/-- A good block of a read whose only failed block it was: what has been counted, and the leg goes on (R109, R146). -/
theorem readGood_recovered (he : w.entry r) (hk : r.kind = .readBlocks) (hf : r.failed = [(r.nextBlock, b)])
    (hp : r.pendingEnding = none) (hs : r.current.state = .filling) (hc : r.nextBlock + 1 < r.count) :
    w.readGood d r m l x =
      ((w.onDrive r.drive (countRecovered r.port b l.track)).withRequest (blockRecovered r x)).goOn d r.rid m l := by
  have hheld : (blockRead r x).heldUp = false :=
    heldUp_of_filling (by rw [current_blockRead]; exact hs) (Nat.ne_of_lt hc)
  have hfind : r.failed.find? (fun f => decide (f.1 = r.nextBlock)) = some (r.nextBlock, b) := by simp [hf]
  have hentry : ((w.onDrive r.drive (countRecovered r.port b l.track)).withRequest
      { blockRead r x with readTimer := none }).entry { blockRead r x with readTimer := none } :=
    entry_withRequest (s := w.onDrive r.drive (countRecovered r.port b l.track)) he rfl he.2.2
  have hreq : ((w.onDrive r.drive (countRecovered r.port b l.track)).withRequest
      { blockRead r x with readTimer := none }).request? r.rid = some { blockRead r x with readTimer := none } :=
    request?_entry hentry
  have hkind : (blockRead r x).kind = .readBlocks := hk
  have hfilter : (blockRead r x).failed.filter (·.1 != r.nextBlock) = [] := by
    show r.failed.filter _ = []
    simp [hf]
  have hcounted : (w.withRequest { blockRead r x with readTimer := none }).recovered r r.nextBlock l.track =
      (w.onDrive r.drive (countRecovered r.port b l.track)).withRequest (blockRecovered r x) := by
    have hone := withRequest_withRequest (s := w.onDrive r.drive (countRecovered r.port b l.track))
      (r := { blockRead r x with readTimer := none }) (q := blockRecovered r x) rfl
    unfold State.recovered
    rw [hfind]
    dsimp only
    rw [raised_eq, onDrive_withRequest, onRequest_some hreq]
    dsimp only
    rw [if_pos hkind, hfilter, putRequest_table (by exact he.2.2)]
    exact hone
  unfold State.readGood
  simp only [advance_read, putData_read he, retime_unheld hheld, hcounted, hp, Nat.ne_of_lt hc, if_false]

/-- A block read good after failing, with another to come on the same track in the same round (R109, R146, R148). -/
theorem leg_read_recovered (h : s.onSector d r) (hdata : dataLegged r) (ht : r.trial = none)
    (hf : r.failed = [(r.nextBlock, b)]) (hk : r.kind = .readBlocks) (hc : r.nextBlock + 1 < r.count)
    (hr : r.nextBlock + 1 ≠ 12 * (r.round + 1))
    (htrack : (s.leg { r with nextBlock := r.nextBlock + 1 }).track = (s.leg r).track)
    (hn : ((s.leg r).sector + 1) % 24 = n.val) (hfill : r.current.state = .filling)
    (hread : readCondition ((s.drive d).found (s.leg r).sector read) (s.drive d).curCyl (s.drive d).head (s.leg r).sector
      (s.leg r).expect = none) :
    exec (.sectorEvent d n read) s = .next (s.close (((atMark s d n).onDrive d
      (countRecovered r.port b (s.leg r).track)).withRequest
        (blockRecovered r ((s.drive d).found (s.leg r).sector read).data.block))) := by
  obtain ⟨hentry, hd, hphase, -, -, hpend⟩ := onSector_facts h
  have hv : (atMark s d n).entry r := hentry
  have hleg : ∀ y, ((atMark s d n).onDrive d (countRecovered r.port b (s.leg r).track)).leg y = s.leg y := fun y =>
    (leg_onDrive rfl y).trans (leg_atMark y)
  rw [exec_readGood h hdata ht hk hread, readGood_recovered hv hk hf hpend hfill hc, hd]
  have hve : ((atMark s d n).onDrive d (countRecovered r.port b (s.leg r).track)).entry r := hentry
  generalize ((s.drive d).found (s.leg r).sector read).data.block = x
  generalize (atMark s d n).onDrive d (countRecovered r.port b (s.leg r).track) = v at *
  have hsteady := goOn_steady (w := v.withRequest (blockRecovered r x)) (q := blockRecovered r x) (d := d) (m := n.val)
    (old := s.leg r) (entry_withRequest hve rfl hve.2.2)
    (fun hturn => hr (hturn.trans (congrArg (fun i => 12 * (i + 1)) (round_blockRead r x))))
    ((congrArg Leg.track (hleg _)).trans htrack) (ready_blockRead hk hfill x) hphase
    (leg_sector_next hdata hdata rfl (workBlock_blockRead hk x) hn) (fun hw => by
      have hnot : r.writeLeg = true := (leg_writesData (s := v.withRequest (blockRecovered r x)) (r := blockRecovered r x)
        hdata).symm.trans hw
      simp [Request.writeLeg, hk] at hnot)
  exact congrArg _ (congrArg _ hsteady)

end

section
variable {s : State} {d : Drive} {n : Fin 24} {read : SurfaceRead} {r : Request} {c : Condition}

theorem pathless_restated (hpath : s.onPath0 r) : (s.path0Handed.withRequest (restated r .positioned .idle)).pathless r.rid :=
  pathless_path0Handed hpath

/-- A block that is tried again, or whose retries are spent (R126, R139, R140, R142). -/
theorem exec_retries (h : s.onSector d r) (hpath : s.onPath0 r) (hl : r.earlyEnded = false) (hdata : dataLegged r)
    (ht : r.trial = none)
    (hcond : dataCondition (s.drive d) r (s.leg r) ((s.drive d).found (s.leg r).sector read) = some c)
    (hc : c = .header ∨ c = .data ∨ c = .write ∧ (r.kind = .writeAndCheck ∧ r.checking = true) ∧ s.settings.autoSpare = false) :
    let u := (atMark s d n).path0Handed
    let q := afterFailure (restated r .positioned .idle)
    exec (.sectorEvent d n read) s = .next (s.close (
      if s.settings.retryLimit ≤ r.retries then
        if r.writeLeg = true ∧ s.settings.autoSpare = true then (u.withRequest q).askSparing r.rid
        else u.conclude r.rid (Ending.at .ended c.detail (addrOf (blockOf r.addr + r.workBlock)))
      else if 1 ≤ s.settings.retryLimit / 2 ∧ r.retries + 1 = s.settings.retryLimit / 2
        then sentBack u d { q with retries := r.retries + 1 }
        else u.withRequest { q with retries := r.retries + 1 })) := by
  intro u q
  obtain ⟨hentry, -, -, hdet, hwait, -⟩ := onSector_facts h
  have hu : u.entry r := hentry
  have hx : (u.withRequest (restated r .positioned .idle)).entry (restated r .positioned .idle) :=
    entry_withRequest hu rfl hu.2.2
  obtain ⟨hid, hkind, hop, hlabel, hformat, haddr, hretries⟩ := afterFailure_keeps (restated r .positioned .idle)
  have hfails := dataFails_retries (d := d) (c := c) hx ht hc
  have hone : (u.withRequest (restated r .positioned .idle)).withRequest q = u.withRequest q := withRequest_withRequest hid.symm
  have hretry := fun spent => retryOr_eq (d := d) (q := q) (spent := spent) hu (pathless_path0Handed (w := atMark s d n) hpath)
    hid hkind (hop.trans hdata.1)
  have hspent := spentRetries_ends (q := q) hu (endsAlike_afterFailure hl hdet hwait)
    ⟨hop.trans hdata.1, hlabel.trans hdata.2.1, hformat.trans hdata.2.2⟩ haddr
    (workBlock_afterFailure (restated r .positioned .idle)) c.detail
  rw [exec_dataFails h hpath hdata ht hcond]
  refine congrArg _ (congrArg _ (hfails.trans ?_))
  show State.retryOr ((u.withRequest (restated r .positioned .idle)).withRequest q) d r.rid
    (if r.writeLeg = true ∧ s.settings.autoSpare = true
      then State.askSparing ((u.withRequest (restated r .positioned .idle)).withRequest q) r.rid
      else State.spentRetries ((u.withRequest (restated r .positioned .idle)).withRequest q) r.rid c.detail) = _
  rw [hone, hretry, hspent, hretries]
  rfl

/-- A write check asks for a sparing at once with AUTO_SPARE on (R126). -/
theorem exec_writeCheck (h : s.onSector d r) (hpath : s.onPath0 r) (hdata : dataLegged r) (ht : r.trial = none)
    (hk : r.kind = .writeAndCheck) (hauto : s.settings.autoSpare = true)
    (hcond : dataCondition (s.drive d) r (s.leg r) ((s.drive d).found (s.leg r).sector read) = some .write) :
    exec (.sectorEvent d n read) s = .next (s.close (((atMark s d n).path0Handed.withRequest
      (noteIn (restated r .positioned .idle) true)).askSparing r.rid)) := by
  obtain ⟨hentry, -⟩ := onSector_facts h
  have hu : (atMark s d n).path0Handed.entry r := hentry
  have hx : ((atMark s d n).path0Handed.withRequest (restated r .positioned .idle)).entry (restated r .positioned .idle) :=
    entry_withRequest hu rfl hu.2.2
  have hfails := dataFails_writeCheck (d := d) hx ht hk hauto
  have hone := withRequest_withRequest (s := (atMark s d n).path0Handed) (r := restated r .positioned .idle)
    (q := noteIn (restated r .positioned .idle) true) rfl
  rw [hone] at hfails
  rw [exec_dataFails h hpath hdata ht hcond]
  exact congrArg _ (congrArg _ hfails)

/-- A void sector ends its request (R141). -/
theorem exec_void (h : s.onSector d r) (hpath : s.onPath0 r) (hl : r.earlyEnded = false) (hdata : dataLegged r)
    (ht : r.trial = none) (hcond : dataCondition (s.drive d) r (s.leg r) ((s.drive d).found (s.leg r).sector read) = some .void) :
    exec (.sectorEvent d n read) s = .next (s.close ((atMark s d n).path0Handed.conclude r.rid
      (Ending.at .ended .voidSector (addrOf (blockOf r.addr + r.workBlock))))) := by
  obtain ⟨hentry, -, -, hdet, hwait, -⟩ := onSector_facts h
  have hu : (atMark s d n).path0Handed.entry r := hentry
  have hx : ((atMark s d n).path0Handed.withRequest (restated r .positioned .idle)).entry (restated r .positioned .idle) :=
    entry_withRequest hu rfl hu.2.2
  have hfails := dataFails_void (d := d) hx hdata
  rw [exec_dataFails h hpath hdata ht hcond]
  exact congrArg _ (congrArg _ (hfails.trans (conclude_restated hu hl hdet hwait nofun)))

/-- A seek check (R143): retried through the arm's stop, or its retries spent, or the third faults the drive. -/
theorem exec_seekCheck (h : s.onSector d r) (hpath : s.onPath0 r) (hl : r.earlyEnded = false) (hdata : dataLegged r)
    (ht : r.trial = none) (hcond : dataCondition (s.drive d) r (s.leg r) ((s.drive d).found (s.leg r).sector read) = some .seek) :
    let u := (atMark s d n).path0Handed
    let q := noteIn (restated r .positioned .idle) false
    exec (.sectorEvent d n read) s = .next (s.close (
      if 2 ≤ r.seekChecks then (u.withRequest q).faultDrive d .repeatedSeekCheck (some q)
      else if s.settings.retryLimit ≤ r.retries then
        u.conclude r.rid (Ending.at .ended .seekCheck (addrOf (blockOf r.addr + r.workBlock)))
      else sentBack u d { q with seekChecks := r.seekChecks + 1, retries := r.retries + 1 })) := by
  intro u q
  obtain ⟨hentry, -, -, hdet, hwait, -⟩ := onSector_facts h
  have hu : u.entry r := hentry
  have hx : (u.withRequest (restated r .positioned .idle)).entry (restated r .positioned .idle) :=
    entry_withRequest hu rfl hu.2.2
  have hfails := dataFails_seek (d := d) hx (pathless_restated (s := atMark s d n) hpath) hdata.1
  have hone : (u.withRequest (restated r .positioned .idle)).withRequest q = u.withRequest q := withRequest_withRequest rfl
  have hspent := spentRetries_ends (q := q) hu (endsAlike_noteIn hl hdet hwait false) hdata rfl rfl .seekCheck
  have hsent : sentBack (u.withRequest (restated r .positioned .idle)) d
      { q with seekChecks := r.seekChecks + 1, retries := r.retries + 1 } =
        sentBack u d { q with seekChecks := r.seekChecks + 1, retries := r.retries + 1 } := by
    have hagain := withRequest_withRequest (s := u) (r := restated r .positioned .idle)
      (q := { q with seekChecks := r.seekChecks + 1, retries := r.retries + 1, state := .recalibrating }) rfl
    unfold sentBack
    rw [hagain]
  rw [exec_dataFails h hpath hdata ht hcond]
  refine congrArg _ (congrArg _ (hfails.trans ?_))
  show (if 2 ≤ r.seekChecks
    then State.faultDrive ((u.withRequest (restated r .positioned .idle)).withRequest q) d .repeatedSeekCheck (some q)
    else if s.settings.retryLimit ≤ r.retries
      then State.spentRetries ((u.withRequest (restated r .positioned .idle)).withRequest q) r.rid .seekCheck
    else sentBack (u.withRequest (restated r .positioned .idle)) d
      { q with seekChecks := r.seekChecks + 1, retries := r.retries + 1 }) = _
  rw [hone, hspent, hsent]

end

/-- Settles O60: the tally rule by what stands in the table; each failure of a block by the condition its sector ends with;
and a block recovered, counted as it is read. -/
theorem suspectTallies : Obligations.SuspectTallies := by
  refine ⟨fun ss t hnodup hlen => raiseTally_spec hnodup hlen, ?_, ?_⟩
  · intro d n read s r h hpath hl hop hlabel hformat htrial hisData leg dr found checks writes c writeCheck u limit mid i address
      failed noted again restart back
    have hdata : dataLegged r := ⟨hop, hlabel, hformat⟩
    obtain ⟨hentry, hd, -, hdet, hwait, -⟩ := onSector_facts h
    have hwrites : r.writeLeg = true ↔ writes := writeLeg_iff
    have hnot : checks → ¬writes := fun hchecks hw => by
      rcases hw with hk | ⟨-, hk⟩
      · simp [hchecks.1] at hk
      · simp [hchecks.2] at hk
    have hi : r.workBlock = i := by
      refine if_congr ?_ rfl rfl
      exact ⟨fun hk => ⟨.inr hk, hk.1⟩, fun ⟨hw, hk⟩ => ⟨hk, (hw.resolve_left (by simp [hk])).2⟩⟩
    have hcond : ∀ x, c = some x → (x ≠ .data ∨ ¬checks) → dataCondition dr r leg found = some x := fun x hc hx => by
      unfold dataCondition
      by_cases hw : writes
      · rw [if_pos (hwrites.2 hw)]
        exact (if_pos hw).symm.trans hc
      · rw [if_neg (mt hwrites.1 hw)]
        have hread : readCondition found dr.curCyl dr.head leg.sector leg.expect = some x := (if_neg hw).symm.trans hc
        split
        · next hk =>
          have hchecking : checks := ⟨hk, by simpa using fun hno => hw (.inr ⟨hk, hno⟩)⟩
          have hne : x ≠ .data := hx.resolve_right (not_not.2 hchecking)
          unfold checkLegCondition
          rw [hread]
          cases x with
          | data => exact absurd rfl hne
          | _ => rfl
        · exact hread
    have hwcond : writeCheck → dataCondition dr r leg found = some .write := fun ⟨hchecks, hc⟩ => by
      have hread : c = readCondition found dr.curCyl dr.head leg.sector leg.expect := if_neg (hnot hchecks)
      unfold dataCondition
      rw [if_neg (mt hwrites.1 (hnot hchecks)), if_pos hchecks.1, checkLegCondition, ← hread]
      rcases hc with hc | ⟨hc, hb⟩
      · rw [hc]
      · rw [hc]
        exact if_neg hb
    have hnoted : ∀ b, noteIn (restated r .positioned .idle) b = noted b := fun b => by
      show ({ r with state := .positioned, phase := .idle, failed := noteFailure r.failed r.workBlock b } : Request) = _
      rw [hi]
      rfl
    have hafter : afterFailure (restated r .positioned .idle) = restart (noted true) := by
      rw [← hnoted]
      exact if_congr Iff.rfl rfl rfl
    have hagain : { restart (noted true) with retries := r.retries + 1 } = restart (again true) := by
      by_cases hchecks : checks
      · rw [show restart (noted true) = { noted true with checking := false, writePos := r.nextBlock } from if_pos hchecks]
        exact (if_pos hchecks).symm
      · rw [show restart (noted true) = noted true from if_neg hchecks]
        exact (if_neg hchecks).symm
    refine ⟨fun hc => ?_, fun hwc hauto => ?_, fun hc => ?_, fun hc => ?_⟩
    · obtain ⟨x, hx, hkinds, hdetail⟩ : ∃ x, dataCondition dr r leg found = some x
          ∧ (x = .header ∨ x = .data ∨ x = .write ∧ checks ∧ s.settings.autoSpare = false)
          ∧ x.detail = if c = some .header then .headerCheck else if checks then .writeCheck else .dataCheck := by
        rcases hc with hc | ⟨hc, hno⟩ | ⟨hwc, hauto⟩
        · exact ⟨_, hcond _ hc (.inl nofun), .inl rfl, (if_pos hc).symm⟩
        · exact ⟨_, hcond _ hc (.inr hno), .inr (.inl rfl), by rw [if_neg (by simp [hc]), if_neg hno]; rfl⟩
        · have hheader : c ≠ some .header := fun hh => by rcases hwc.2 with hc | ⟨hc, -⟩ <;> rw [hh] at hc <;> cases hc
          exact ⟨_, hwcond hwc, .inr (.inr ⟨rfl, hwc.1, hauto⟩), by rw [if_neg hheader, if_pos hwc.1]; rfl⟩
      have hexec := exec_retries (n := n) h hpath hl hdata htrial hx hkinds
      rw [hafter] at hexec
      dsimp only at hexec
      rw [hagain, hdetail, hi] at hexec
      refine ⟨fun hlow hmid => ?_, fun hlow hmid => ?_, fun hspent hno => ?_, fun hspent hw hauto => ?_⟩
      · rw [hexec, if_neg (Nat.not_le.2 hlow), if_neg hmid]
        rfl
      · rw [hexec, if_neg (Nat.not_le.2 hlow), if_pos hmid]
        rfl
      · rw [hexec, if_pos hspent, if_neg fun hboth => hno ⟨hwrites.1 hboth.1, hboth.2⟩]
        rfl
      · have hsame : restart (noted true) = noted true := if_neg fun hchecks => hnot hchecks hw
        rw [hexec, if_pos hspent, if_pos ⟨hwrites.2 hw, hauto⟩, hsame]
        rfl
    · rw [exec_writeCheck h hpath hdata htrial hwc.1.1 hauto (hwcond hwc), hnoted]
      rfl
    · rw [exec_void h hpath hl hdata htrial (hcond _ hc (.inl nofun)), hi]
      rfl
    · have hexec := exec_seekCheck (n := n) h hpath hl hdata htrial (hcond _ hc (.inl nofun))
      rw [hnoted] at hexec
      dsimp only at hexec
      rw [hi] at hexec
      refine ⟨fun hfew hlow => ?_, fun hfew hspent => ?_, fun hthird hfans => ⟨_, hexec.trans (congrArg _ (congrArg _
        (if_pos hthird))), ?_⟩⟩
      · rw [hexec, if_neg (Nat.not_le.2 hfew), if_neg (Nat.not_le.2 hlow)]
        rfl
      · rw [hexec, if_neg (Nat.not_le.2 hfew), if_pos hspent]
        rfl
      · have hmark : (atMark s d n).fansPlainly d := fansPlainly_onDrive hfans rfl
        have hu : u.fansPlainly d := hmark
        rw [← faultOwner_some (r := noted false) hentry.2.2]
        exact faultDrive_spec (fansPlainly_withRequest (s := u) (r := r) (q := noted false) hu hentry rfl rfl rfl rfl rfl rfl rfl
          nofun) (by decide) (some (noted false))
  · intro d n read s r b h hop hlabel hformat htrial hf hk l found hfill hc hr htrack hn hread
    rw [leg_read_recovered h ⟨hop, hlabel, hformat⟩ htrial hf hk hc hr htrack hn hfill hread, blockRecovered_eq, atMark,
      onDrive_onDrive]
    rfl

end Sys2Proof.Proofs

/-! ### A sparing asked for by a request that waits behind itself -/

namespace Sys2Proof.Proofs
open Sys2Proof Sys2Proof.Machine Sys2Proof.Laws

/-- A write that waits in a chain behind its own place in the table. -/
def selfWaiting : Request :=
  { (default : Request) with kind := .writeBlocks, count := 1, state := .waitingChain, pred := some 0 }

/-- The state just reset with that one request, every alternate of its drive retired. -/
def selfWaitingState : State :=
  { State.reset.onDrive 0 (fun dr => { dr with map := { dr.map with entries := (List.range 128).map .retire } }) with
    table := [selfWaiting] }

theorem selfWaiting_entry : selfWaitingState.entry selfWaiting :=
  ⟨List.mem_singleton_self _, fun _ hq _ => List.mem_singleton.1 hq, nofun⟩

theorem selfWaiting_pathless : selfWaitingState.pathless selfWaiting.rid := by decide

set_option maxRecDepth 100000 in
theorem selfWaiting_no_alternate : chooseAlternate (selfWaitingState.drive selfWaiting.drive).map.entries
    ((blockOf selfWaiting.addr + selfWaiting.nextBlock) / 24) = none := by decide

set_option maxRecDepth 100000 in
/-- The asking takes the request out of WAITING_CHAIN before it ends it: the port gets one report. -/
theorem selfWaiting_asked_reports :
    ((selfWaitingState.askSparing selfWaiting.rid).port .A).reports.length = 1 := by decide

set_option maxRecDepth 100000 in
/-- Ended as it stands, the request is its own successor in the chain: the broken chain reports it once more. -/
theorem selfWaiting_concluded_reports :
    ((selfWaitingState.conclude selfWaiting.rid (Ending.at .ended .spareExhausted
      (sectorZero ((blockOf selfWaiting.addr + selfWaiting.nextBlock) / 24)))).port .A).reports.length = 2 := by
  decide

/-- Refutes O57: its clause on a sparing asked for with no alternate free (R119) takes a request in any state. One that
waits in a chain behind itself is a counterexample: `askSparing` takes it out of WAITING_CHAIN before it ends it, and one
report is sent, while the stated ending finds it waiting behind itself, breaks that chain too, and sends two. The clause
lacks a hypothesis that keeps such states out; a sparing is asked for by requests that run, not by ones that wait. -/
theorem not_alternateChosen : ¬ Obligations.AlternateChosen := by
  rintro ⟨-, hasked, -⟩
  have hsame := (hasked selfWaitingState selfWaiting selfWaiting_entry selfWaiting_pathless rfl).2.1 rfl rfl
    selfWaiting_no_alternate rfl
  have hreports : 1 = 2 := by
    rw [← selfWaiting_asked_reports, hsame, selfWaiting_concluded_reports]
  exact absurd hreports (by decide)

end Sys2Proof.Proofs

/-! ### RESERVE, RELEASE and SEIZE (R155, R157, R158) -/

namespace Sys2Proof.Proofs
open Sys2Proof Sys2Proof.Machine Sys2Proof.Laws

section
variable {s : State} {p q : Port} {f : RequestFrame} {d : Drive} {o : Operands} {k : Kind}

/-- A drive's record with its reservation owner and its wanted set given. -/
def ownedBy (q : Option Port) (w : Vector Bool 4) (dr : DriveRec) : DriveRec :=
  { dr with unit := { dr.unit with owner := q, wanted := w } }

/-- An owner set leaves the wanted set. -/
theorem setOwner_eq (s : State) (d : Drive) (p : Port) :
    s.setOwner d p = s.onDrive d (ownedBy (some p) (s.drive d).unit.wanted) := onDrive_congr rfl

/-- A drive's owner and wanted set given and the wanted ports then told DRIVE_FREE: the owner stays as given, nobody is
wanted any more (R157). -/
theorem freeWanted_ownedBy (s : State) (d : Drive) (owner : Option Port) (w : Vector Bool 4) :
    let t := (s.onDrive d (ownedBy owner w)).freeWanted d
    t = { s.onDrive d (ownedBy owner (Vector.replicate 4 false)) with ports := t.ports }
      ∧ ∀ x, t.port x = if ofPort w x then (s.port x).posted .driveFree (.drive d) .none else s.port x := by
  obtain ⟨t, rfl, hframe, hports⟩ := freeWanted_eq (s := s.onDrive d (ownedBy owner w)) (d := d)
  refine ⟨?_, fun x => ?_⟩
  · rw [onDrive_onDrive] at hframe
    exact hframe
  · rw [hports, drive_onDrive_same, onDrive_port]
    rfl

/-- A reservation ended is a drive without owner whose wanted ports are told (R157). -/
theorem endReservation_eq (s : State) (d : Drive) :
    s.endReservation d = (s.onDrive d (ownedBy none (s.drive d).unit.wanted)).freeWanted d :=
  congrArg (State.freeWanted · d) (onDrive_congr rfl)

/-- The state in which another port has seized a drive from its owner (R158). -/
def seizedFrom (s : State) (d : Drive) (q p : Port) : State :=
  ((s.post q .reservationLost (.drive d) .none).onDrive d
    (ownedBy (some p) (setOfPort (s.drive d).unit.wanted p false))).freeWanted d

theorem acceptSeize_other (ho : (s.drive d).unit.owner = some q) (hq : q ≠ p) :
    acceptSeize p f s d o = (seizedFrom s d q p).answer p (doneReport .seize f .none) := by
  have howned : (((s.setOwner d p).post q .reservationLost (.drive d) .none).onDrive d fun dr =>
      { dr with unit := { dr.unit with wanted := setOfPort dr.unit.wanted p false } })
      = (s.post q .reservationLost (.drive d) .none).onDrive d
          (ownedBy (some p) (setOfPort (s.drive d).unit.wanted p false)) := by
    have hcomm : (s.setOwner d p).post q .reservationLost (.drive d) .none =
        (s.post q .reservationLost (.drive d) .none).setOwner d p := rfl
    rw [hcomm, setOwner_eq, onDrive_onDrive]
    exact onDrive_congr rfl
  simp only [acceptSeize, ho, hq, if_false, howned]
  rfl

/-- The seizer leaves the wanted set and the others stay in it (R158). -/
theorem wanted_without (w : Vector Bool 4) (p x : Port) :
    ofPort (setOfPort w p false) x = true ↔ ofPort w x = true ∧ x ≠ p := by
  by_cases hx : x = p
  · simp [hx]
  · simp [ofPort_setOfPort_other _ _ hx, hx]

/-- A seizure: the former owner told RESERVATION_LOST, every port but the seizer that was in the wanted set DRIVE_FREE
(R158). -/
theorem seizedFrom_spec (s : State) (d : Drive) (q p : Port) :
    let t := seizedFrom s d q p
    t = { s.onDrive d (ownedBy (some p) (Vector.replicate 4 false)) with ports := t.ports }
      ∧ ∀ x : Port,
          let told := if x = q then (s.port x).posted .reservationLost (.drive d) .none else s.port x
          t.port x =
            if ofPort (s.drive d).unit.wanted x = true ∧ x ≠ p then told.posted .driveFree (.drive d) .none else told := by
  obtain ⟨hframe, hports⟩ := freeWanted_ownedBy (s.post q .reservationLost (.drive d) .none) d (some p)
    (setOfPort (s.drive d).unit.wanted p false)
  have htold : ∀ x, (s.post q .reservationLost (.drive d) .none).port x =
      if x = q then (s.port x).posted .reservationLost (.drive d) .none else s.port x := fun x => by
    rw [post_eq]
    by_cases hx : x = q
    · rw [if_pos hx, hx, port_onPort_same]
    · rw [if_neg hx, port_onPort_other _ hx]
  refine ⟨hframe, fun x => (hports x).trans ?_⟩
  rw [htold]
  exact if_congr (wanted_without _ p x) rfl rfl

/-- A request for a drive that none of the drive's checks turns away is carried out (R47). -/
theorem exec_unchecked {acc : State → Drive → Operands → State} (h : s.reaches k p f d o) (hu : k.carriesUnit = true)
    (hd : s.driveChecks p d k f o = none) : s.live (s.arrival p k f acc) = .next (acc s d o) := by
  rw [live_powered (reaches_powered h), arrival_reaches h hu, hd]

theorem exec_reserve (h : s.reaches .reserve p f d o) (hr : (s.drive d).state = .ready) (hc : (s.drive d).clear p) :
    exec (.reserve p f) s = .next (acceptReserve p f s d o) := by
  obtain ⟨howner, hattention, hdeferred⟩ := hc
  exact exec_unchecked (acc := acceptReserve p f) h rfl
    (driveChecks_ready hr (.inr howner) hattention hdeferred rfl rfl nofun nofun)

theorem exec_release (h : s.reaches .release p f d o) : exec (.release p f) s = .next (acceptRelease p f s d o) :=
  exec_unused (acc := acceptRelease p f) h rfl rfl rfl rfl nofun nofun

theorem exec_seize (h : s.reaches .seize p f d o) (hr : (s.drive d).state = .ready)
    (ha : ofPort (s.drive d).unit.attention p = none) (hd : ofPort (s.drive d).deferred p = none) :
    exec (.seize p f) s = .next (acceptSeize p f s d o) :=
  exec_unchecked (acc := acceptSeize p f) h rfl (driveChecks_ready hr (.inl rfl) ha hd rfl rfl nofun nofun)

end

/-- Settles O29: RELEASE by its owner and SEIZE from another port both give the drive's owner and wanted set and then tell
the wanted ports. -/
theorem reservationsMove : Obligations.ReservationsMove := by
  intro p f d o s w own
  refine ⟨fun h hr hc => ?_, fun h ho => ?_, fun h ho => ?_,
    fun h hr ha hd => ⟨fun ho => ?_, fun ho => ?_, fun q ho hq => ?_⟩⟩
  · rw [exec_reserve h hr hc, acceptReserve, setOwner_eq]
    rfl
  · refine ⟨s.endReservation d, ?_, ?_⟩
    · rw [exec_release h, acceptRelease, if_pos ho]
    · rw [endReservation_eq]
      exact freeWanted_ownedBy s d none w
  · rw [exec_release h, acceptRelease, if_neg ho]
  · rw [exec_seize h hr ha hd, acceptSeize, ho, setOwner_eq]
    rfl
  · rw [exec_seize h hr ha hd, acceptSeize, ho]
    exact congrArg _ (if_pos rfl)
  · exact ⟨seizedFrom s d q p, by rw [exec_seize h hr ha hd, acceptSeize_other ho hq], seizedFrom_spec s d q p⟩

end Sys2Proof.Proofs

/-! ### COLLECT NOTICES (R165, R166) -/

namespace Sys2Proof.Proofs
open Sys2Proof Sys2Proof.Machine Sys2Proof.Laws

section
variable {s : State} {p : Port} {f : RequestFrame} {limit : Nat} {sel : List NoticeKind}

/-- A record is of the selected kinds; an empty selection selects every kind (R166). -/
def selected (sel : List NoticeKind) (n : Notice) : Bool := sel.isEmpty || sel.contains n.kind

theorem collect_cons (sel : List NoticeKind) (room : Nat) (n : Notice) (ns : List Notice) :
    collect sel (room + 1) (n :: ns) =
      if selected sel n then (n :: (collect sel room ns).1, (collect sel room ns).2)
      else ((collect sel (room + 1) ns).1, n :: (collect sel (room + 1) ns).2) := rfl

theorem collect_full (sel : List NoticeKind) (ns : List Notice) : collect sel 0 ns = ([], ns) := by cases ns <;> rfl

/-- A collection with room for `room` records takes that many of the oldest selected ones and leaves the other selected
ones and all that are not selected, in their order (R166). -/
theorem collect_spec (sel : List NoticeKind) (room : Nat) (ns : List Notice) :
    let r := collect sel room ns
    r.1 = (ns.filter (selected sel)).take room ∧ r.2.filter (selected sel) = (ns.filter (selected sel)).drop room
      ∧ r.2.filter (fun n => !selected sel n) = ns.filter (fun n => !selected sel n) ∧ r.2.Sublist ns := by
  induction ns generalizing room with
  | nil => simp [collect]
  | cons n ns ih =>
    cases room with
    | zero => simp [collect_full]
    | succ room =>
      rw [collect_cons]
      cases hn : selected sel n with
      | true =>
        obtain ⟨htaken, hleft, hothers, hsub⟩ := ih room
        simp [hn, htaken, hleft, hothers, hsub.cons n]
      | false =>
        obtain ⟨htaken, hleft, hothers, hsub⟩ := ih (room + 1)
        simp [hn, htaken, hleft, hothers, hsub]

theorem exec_collectNotices (h : s.admits .collectNotices p f (.collect limit sel)) :
    exec (.collectNotices p f) s = .next (acceptCollect p f s 0 (.collect limit sel)) := by
  show s.live (s.arrival p .collectNotices f (acceptCollect p f)) = _
  rw [live_powered (admits_powered h), arrival_admits h rfl rfl]

end

/-- Settles O31: what is taken and what is left are those of `collect`, by induction on the list. -/
theorem collectTakesOldest : Obligations.CollectTakesOldest := by
  intro p f limit sel s h ns want
  exact ⟨_, _, exec_collectNotices h, collect_spec sel (if limit = 0 then ns.length else limit) ns⟩

end Sys2Proof.Proofs

/-! ### TEST NOTICE (R163, R165, R167) -/

namespace Sys2Proof.Proofs
open Sys2Proof Sys2Proof.Machine Sys2Proof.Laws

section
variable {s : State} {p q : Port} {f : RequestFrame} {k : Kind}

/-- A posting whose kind and subject no record has makes a new one at the tail (R163). -/
theorem postInto_absent {ns : List Notice} {kind : NoticeKind} {sub : Subject} {det : NoticeDetails}
    (h : ∀ n ∈ ns, n.kind = kind → n.subject ≠ sub) :
    postInto ns kind sub det = ns ++ [{ kind := kind, subject := sub, occurrences := 1, details := det }] := by
  refine if_neg fun hany => ?_
  obtain ⟨n, hn, hmatch⟩ := List.any_eq_true.1 hany
  obtain ⟨hkind, hsub⟩ := of_decide_eq_true hmatch
  exact h n hn hkind hsub

/-- A record after a posting that finds it or another: counted, up to 255, where it has the kind and subject (R163). -/
def counted (kind : NoticeKind) (sub : Subject) (n : Notice) : Notice :=
  if n.kind = kind ∧ n.subject = sub then { n with occurrences := min 255 (n.occurrences + 1) } else n

theorem map_counted_absent {ns : List Notice} {kind : NoticeKind} {sub : Subject}
    (h : ∀ n ∈ ns, n.kind = kind → n.subject ≠ sub) : ns.map (counted kind sub) = ns :=
  (List.map_congr_left fun n hn => if_neg fun hmatch => h n hn hmatch.1 hmatch.2).trans (List.map_id ns)

/-- A posting whose kind and subject one record has counts that record where it stands (R163). -/
theorem postInto_standing {a b : List Notice} {n : Notice} {kind : NoticeKind} {sub : Subject} {det : NoticeDetails}
    (hk : n.kind = kind) (hs : n.subject = sub) (h : ∀ m ∈ a ++ b, m.kind = kind → m.subject ≠ sub) :
    postInto (a ++ n :: b) kind sub det = a ++ { n with occurrences := min 255 (n.occurrences + 1) } :: b := by
  obtain ⟨ha, hb⟩ := List.forall_mem_append.1 h
  have hfound : postInto (a ++ n :: b) kind sub det = (a ++ n :: b).map (counted kind sub) := if_pos (by simp [hk, hs])
  rw [hfound, List.map_append, List.map_cons, map_counted_absent ha, map_counted_absent hb, counted, if_pos ⟨hk, hs⟩]

/-- A request for no drive whose fields are out of range is refused, and nothing else changes (R47 check 4, R49). -/
theorem arrival_badFields {acc : State → Drive → Operands → State} {x : Detail} (h : s.takes p f)
    (hu : k.carriesUnit = false) (he : k.tableEntry = false) (hk : k.isData = false) (hf : checkFields k f = .error x) :
    s.arrival p k f acc = s.answer p (plainReport k f .refused x .none .none) := by
  obtain ⟨-, honline, hroom, htag⟩ := h
  have hchecks : s.checks p k f = .error (.field x) := by simp [State.checks, htag, hu, hf]
  have hreport : denialReport s p k.code (some k) f (.field x) = plainReport k f .refused x .none .none := by
    cases hd : s.mapUnit p f.unit.toNat <;>
      simp [denialReport, plainReport, frameCount, hk, hd, Denial.detail, Denial.cls, Denial.qualifier, Denial.body]
  simp only [State.arrival, honline, hroom, hchecks]
  show s.deny p k.code (some k) f (.field x) = _
  rw [deny_eq (x := .field x) _ ⟨nofun, nofun⟩, hreport, State.chainClosed, he]
  rfl

theorem portOfCode_none {n : Nat} (h : n < 1 ∨ 4 < n) : portOfCode n = none := by
  unfold portOfCode
  split
  case h_5 => rfl
  all_goals omega

/-- A port code outside 1 to 4 names no port (10.8). -/
theorem checkFields_testNotice (h : f.one 0 < 1 ∨ 4 < f.one 0) : checkFields .testNotice f = .error .fieldInvalid := by
  have hoperands : operands? .testNotice f = none := by simp [operands?, portOfCode_none h]
  rw [checkFields, hoperands]
  exact ite_self _

/-- TEST NOTICE posts to the port named and reports to the sender (R167). -/
theorem exec_testNotice (h : s.admits .testNotice p f (.port q)) :
    exec (.testNotice p f) s =
      .next ((s.onPort q fun pr => pr.posted .test .none .none).answer p (doneReport .testNotice f .none)) := by
  show s.live (s.arrival p .testNotice f (acceptTest p f)) = _
  rw [live_powered (admits_powered h), arrival_admits h rfl rfl, acceptTest, post_eq]

end

/-- Settles O32: the list is what the posting makes of it, a record counted or a new one at the tail. -/
theorem testNoticePosts : Obligations.TestNoticePosts := by
  intro p f s
  refine ⟨fun q h => ⟨postInto (s.port q).notices .test .none .none, ?_, postInto_absent, ?_⟩, fun h _ hport => ?_⟩
  · rw [exec_testNotice h]
    exact congrArg (fun t : State => Host.Outcome.next (t.answer p (doneReport .testNotice f .none))) (onPort_congr rfl)
  · intro a n b hlist hkind hsub hothers
    rw [hlist]
    exact postInto_standing hkind hsub hothers
  · show s.live (s.arrival p .testNotice f (acceptTest p f)) = _
    rw [live_powered h.1, arrival_badFields h rfl rfl rfl (checkFields_testNotice hport)]

end Sys2Proof.Proofs

/-! ### SET WINDOW, CLEAR WINDOW and READ WINDOWS (R170 to R172) -/

namespace Sys2Proof.Proofs
open Sys2Proof Sys2Proof.Machine Sys2Proof.Laws

section
variable {s : State} {p : Port} {f : RequestFrame} {d : Drive} {w : Fin 4} {base len : Nat} {a : Access} {b : Action}
  {c : Scope}

/-- A window is free for a port when it is FREE or the port's own (R171, R172). -/
theorem ownedByOther_own (h : ∀ y, s.windows[w] = some y → y.owner = p) : s.ownedByOther p w = false := by
  unfold State.ownedByOther
  split
  · next y hy => simp [h y hy]
  · rfl

theorem ownedByOther_foreign {y : Window} (hy : s.windows[w] = some y) (h : y.owner ≠ p) : s.ownedByOther p w = true := by
  simp [State.ownedByOther, hy, h]

/-- SET WINDOW names a drive and uses none: past checks 1 to 7 it acts on its window (R171). -/
theorem exec_setWindow (h : s.reaches .setWindow p f d (.window w base len a b c)) :
    exec (.setWindow p f) s = .next (acceptSetWindow p f s d (.window w base len a b c)) :=
  exec_unused (acc := acceptSetWindow p f) h rfl rfl rfl rfl nofun nofun

/-- A request for no drive that check 4 and the strap let through is carried out (R47). -/
theorem exec_admitted {k : Kind} {o : Operands} {acc : State → Drive → Operands → State} (h : s.admits k p f o)
    (hu : k.carriesUnit = false) (he : k.tableEntry = false) : s.live (s.arrival p k f acc) = .next (acc s 0 o) := by
  rw [live_powered (admits_powered h), arrival_admits h hu he]

theorem exec_clearWindow (h : s.admits .clearWindow p f (.windowNumber w)) :
    exec (.clearWindow p f) s = .next (acceptClearWindow p f s 0 (.windowNumber w)) :=
  exec_admitted (acc := acceptClearWindow p f) h rfl rfl

theorem exec_readWindows {o : Operands} (h : s.admits .readWindows p f o) :
    exec (.readWindows p f) s = .next (acceptReadWindows p f s 0 o) :=
  exec_admitted (acc := acceptReadWindows p f) h rfl rfl

/-- A CLEAR WINDOW that names no window fails check 4, whatever its flags (R169, R172). -/
theorem checkFields_clearWindow (h : 3 < f.one 0) : checkFields .clearWindow f = .error .fieldInvalid := by
  have hnumber : windowNumber? (f.one 0) = none := dif_neg (by omega)
  have hoperands : operands? .clearWindow f = none := by simp [operands?, hnumber]
  rw [checkFields, hoperands]
  exact ite_self _

/-- The length taken is the largest power of two in the length named, and only 1 to 8 are taken (R170). -/
theorem windowLength_spec {n : Nat} (h : windowLength n = some len) :
    (len = 1 ∨ len = 2 ∨ len = 4 ∨ len = 8) ∧ n ≤ 8 ∧ len ≤ n ∧ n < 2 * len := by
  unfold windowLength at h
  split at h <;> cases h <;> decide

/-- A SET WINDOW that passes check 4 names a length in range and a home track, and its base is rounded down (R170). -/
theorem window_taken (h : checkFields .setWindow f = .ok (.window w base len a b c)) :
    windowLength (f.one 3) = some len ∧ f.two 1 ≤ 8959 ∧ base = f.two 1 - f.two 1 % len := by
  have hops : (if f.params.length = 7 then windowOperands? f else none) = some (.window w base len a b c) :=
    operands?_of_checkFields h
  have hwindow : windowOperands? f = some (.window w base len a b c) := (Option.ite_none_right_eq_some.1 hops).2
  unfold windowOperands? at hwindow
  split at hwindow
  case h_1 hlen _ _ _ =>
    obtain ⟨htrack, hrecord⟩ := Option.ite_none_right_eq_some.1 hwindow
    cases hrecord
    exact ⟨hlen, htrack, rfl⟩
  case h_2 => cases hwindow

end

/-- Settles O34: the window's owner at arrival decides. -/
theorem windowSetActs : Obligations.WindowSetActs := by
  intro p f d w base len a b c s h x
  rw [exec_setWindow h]
  refine ⟨fun hown => ?_, fun y hy hother => ?_⟩
  · rw [acceptSetWindow, ownedByOther_own hown]
    rfl
  · rw [acceptSetWindow, ownedByOther_foreign hy hother]
    rfl

/-- Settles O35: a number out of range fails check 4; else the window's owner at arrival decides. -/
theorem windowsClearedAndRead : Obligations.WindowsClearedAndRead := by
  intro p f s
  refine ⟨fun h _ hnumber => ?_, fun w h => ⟨fun hown => ?_, fun y hy hother => ?_⟩, fun o h => exec_readWindows h⟩
  · show s.live (s.arrival p .clearWindow f (acceptClearWindow p f)) = _
    rw [live_powered h.1, arrival_badFields h rfl rfl rfl (checkFields_clearWindow hnumber)]
  · rw [exec_clearWindow h, acceptClearWindow, ownedByOther_own hown]
    rfl
  · rw [exec_clearWindow h, acceptClearWindow, ownedByOther_foreign hy hother]
    rfl

/-- Settles O36: every length taken divides 8, and so the 8960 home tracks. -/
theorem windowSpanTaken : Obligations.WindowSpanTaken := by
  intro f w base len a b c h
  obtain ⟨hlen, htrack, rfl⟩ := window_taken h
  obtain ⟨hpower, hmax, hin, hlargest⟩ := windowLength_spec hlen
  refine ⟨hpower, by omega, hmax, hin, hlargest, ?_⟩
  obtain rfl | rfl | rfl | rfl := hpower <;> omega

end Sys2Proof.Proofs

/-! ### Frames not taken, and the first checks of those that are (R47, R49, R65, R67, R177, R180) -/

namespace Sys2Proof.Proofs
open Sys2Proof Sys2Proof.Machine Sys2Proof.Laws

section
variable {s : State} {p : Port} {k : Kind} {f : RequestFrame} {c : Instr} {x : Denial}
  {acc : State → Drive → Operands → State}

/-- A request command of any kind, STRING RESET among them, is an arrival of its kind. -/
theorem exec_request (hc : requestCommand k p f = some c ∨ (k = .stringReset ∧ ∃ x, c = .stringReset p f x)) (s : State) :
    ∃ acc, exec c s = s.live (s.arrival p k f acc) := by
  obtain hc | ⟨rfl, cables, rfl⟩ := hc
  · exact exec_requestCommand hc s
  · exact ⟨State.acceptStringReset p f cables, rfl⟩

theorem arrival_offline (h : (s.port p).online = false) : s.arrival p k f acc = s := if_pos h

theorem arrival_noRoom (hon : (s.port p).online = true) (h : s.hasRoom p = false) :
    s.arrival p k f acc = s.overrun p := by
  simp [State.arrival, hon, h]

/-- A frame that the adapter takes and a check turns away is denied (R44, R47). -/
theorem arrival_denied (hon : (s.port p).online = true) (hroom : s.hasRoom p = true)
    (h : s.checks p k f = .error x) : s.arrival p k f acc = s.deny p k.code (some k) f x := by
  simp [State.arrival, hon, hroom, h]

theorem checks_tagInUse (h : (s.tagged? p f.tagNumber).isSome = true) : s.checks p k f = .error .tagInUse := if_pos h

theorem checks_unitUnknown (htag : s.tagged? p f.tagNumber = none) (hu : k.carriesUnit = true)
    (h : s.unitDrive? p f = none) : s.checks p k f = .error .unitUnknown := by
  simp [State.checks, htag, hu, h]

/-- A unit names no drive when the one it is mapped to, if any, is ABSENT (R179). -/
theorem unitDrive?_absent (h : ∀ d, s.mapUnit p f.unit.toNat = some d → (s.drive d).state = .absent) :
    s.unitDrive? p f = none := by
  unfold State.unitDrive?
  split
  · next d hd => exact if_pos (h d hd)
  · rfl

/-- The recovered count of a request turned away is the one kept for the drive its unit is mapped to (R148). -/
theorem denialReport_recoveredCount (n : Nat) :
    (denialReport s p n (some k) f x).recoveredCount = match s.mapUnit p f.unit.toNat with
      | some d => if k.isData = true then (ofPort (s.drive d).recCounts p).count else 0
      | none => 0 := by
  cases hd : s.mapUnit p f.unit.toNat <;> simp [denialReport, hd, State.recoveredCount]

end

/-- Settles O12: the adapter's two tests, then checks 1 and 3, each of which decides what an arrival comes to. -/
theorem requestNotTaken : Obligations.RequestNotTaken := by
  intro k p f c s hc hpower
  obtain ⟨acc, hexec⟩ := exec_request hc s
  rw [hexec, live_powered hpower]
  refine ⟨fun hoff => ?_, fun hon hfull => ?_, fun hon hroom htag => ?_, fun ⟨_, hon, hroom, htag⟩ hu habsent => ?_⟩
  · rw [arrival_offline hoff]
  · rw [arrival_noRoom hon hfull]
    rfl
  · rw [arrival_denied hon hroom (checks_tagInUse htag)]
    exact ⟨denialReport s p k.code (some k) f .tagInUse, rfl, rfl, rfl, rfl, rfl, rfl, rfl⟩
  · rw [arrival_denied hon hroom (checks_unitUnknown htag hu (unitDrive?_absent habsent)),
      deny_eq (x := .unitUnknown) _ ⟨nofun, nofun⟩]
    exact ⟨denialReport s p k.code (some k) f .unitUnknown, rfl, rfl, rfl, rfl, rfl, rfl, rfl, rfl,
      denialReport_recoveredCount _⟩

end Sys2Proof.Proofs

/-! ### What no operation touches: the queue of waiting commands

Every lemma `<operation>_pending` says of one operation that it leaves the queue as it was, so that `simp` takes an event's
operations off one by one and a proof has only the matches of the operation's definition to split. -/

namespace Sys2Proof.Proofs
open Sys2Proof Sys2Proof.Machine Sys2Proof.Laws

section
variable {s t : State} {d : Drive} {p : Port} {r : Request} {rid : Nat} {e : Ending} {body : Body} {l : Leg} {op : SpareOp}
  {f : RequestFrame} {o : Operands} {k : Kind} {acc : State → Drive → Operands → State} {found : Sector} {read : SurfaceRead}
  {q : TestPlan} {j : LabelJob} {c : Condition} {b : Block} {x : SettingItem}

/-! #### Choices and repetitions -/

@[simp] theorem ite_pending {c : Prop} [Decidable c] :
    (if c then s else t).pending = if c then s.pending else t.pending := apply_ite ..

/-- An operation made for each of a list leaves the queue where it does so for one. -/
@[simp] theorem foldl_pending {α : Type} {f : State → α → State} (h : ∀ (s : State) (a : α), (f s a).pending = s.pending)
    (l : List α) : (l.foldl f s).pending = s.pending := by
  induction l generalizing s with
  | nil => rfl
  | cons a l ih => exact ih.trans (h s a)

@[simp] theorem forDrives_pending {f : State → Drive → State} (h : ∀ (s : State) (d : Drive), (f s d).pending = s.pending) :
    (forDrives f s).pending = s.pending := foldl_pending h _

@[simp] theorem forPorts_pending {f : State → Port → State} (h : ∀ (s : State) (p : Port), (f s p).pending = s.pending) :
    (forPorts f s).pending = s.pending := foldl_pending h _

/-! #### Requests, paths, segments, the buffer -/

@[simp] theorem putRequest_pending : (s.putRequest r).pending = s.pending := by simp [State.putRequest]

@[simp] theorem onRequest_pending (f : Request → Request) : (s.onRequest rid f).pending = s.pending := by
  simp only [State.onRequest]
  split <;> simp

@[simp] theorem handOn0_pending : s.handOn0.pending = s.pending := by
  simp only [State.handOn0]
  split <;> simp

@[simp] theorem handOn1_pending : s.handOn1.pending = s.pending := by
  simp only [State.handOn1]
  split <;> simp

@[simp] theorem releasePath_pending : (s.releasePath rid).pending = s.pending := by simp [State.releasePath]
@[simp] theorem leavePaths_pending : (s.leavePaths rid).pending = s.pending := by simp [State.leavePaths]
@[simp] theorem setSegment_pending (i : Fin 8) (h : Option Nat) : (s.setSegment i h).pending = s.pending := rfl
@[simp] theorem freeSegmentsOf_pending : (s.freeSegmentsOf rid).pending = s.pending := by simp [State.freeSegmentsOf]
@[simp] theorem leaveBuffer_pending : (s.leaveBuffer rid).pending = s.pending := rfl

/-! #### A leg cut (R17) -/

@[simp] theorem cutLeg_pending : (s.cutLeg d).pending = s.pending := by
  simp only [State.cutLeg]
  split
  · rfl
  · split
    · split <;> simp
    · rfl

/-! #### Notices, attention, reservations, counts, the spare map (R130, R132, R146 to R149, R157 to R165, R175) -/

@[simp] theorem post_pending (k : NoticeKind) (sub : Subject) (det : NoticeDetails) :
    (s.post p k sub det).pending = s.pending := by
  simp [State.post]

@[simp] theorem postAll_pending (k : NoticeKind) : (s.postAll k d).pending = s.pending := by simp [State.postAll]
@[simp] theorem setAttention_pending (r : AttnReason) : (s.setAttention d p r).pending = s.pending := by simp [State.setAttention]
@[simp] theorem clearAttention_pending : (s.clearAttention d p).pending = s.pending := rfl
@[simp] theorem freeWanted_pending : (s.freeWanted d).pending = s.pending := by simp [State.freeWanted]
@[simp] theorem endReservation_pending : (s.endReservation d).pending = s.pending := by simp [State.endReservation]

@[simp] theorem loseReservation_pending : (s.loseReservation d).pending = s.pending := by
  simp only [State.loseReservation]
  split <;> simp

@[simp] theorem reportAfter_pending : (s.reportAfter r).pending = s.pending := by simp [State.reportAfter]
@[simp] theorem raiseRecovered_pending : (s.raiseRecovered p d).pending = s.pending := rfl
@[simp] theorem acceptClass_pending (c : DataClass) : (s.acceptClass p d c).pending = s.pending := rfl
@[simp] theorem raiseSuspect_pending (track : Nat) : (s.raiseSuspect d track).pending = s.pending := rfl

@[simp] theorem fold_pending : (s.fold r e).pending = s.pending := by
  simp only [State.fold]
  split <;> simp

@[simp] theorem clearDeferred_pending : (s.clearDeferred p d).pending = s.pending := rfl
@[simp] theorem checkSpares_pending : (s.checkSpares d).pending = s.pending := by simp [State.checkSpares]

@[simp] theorem queueLabelUpdate_pending : (s.queueLabelUpdate d).pending = s.pending := by
  simp only [State.queueLabelUpdate]
  split <;> simp

@[simp] theorem changeMap_pending (f : List MapEntry → List MapEntry) : (s.changeMap d f).pending = s.pending := by
  simp [State.changeMap]

/-! #### Endings and fan-outs (R35, R38, R55, R56, R63) -/

@[simp] theorem reportEnding_pending : (s.reportEnding r e body).pending = s.pending := rfl

@[simp] theorem leaveTable_pending : (s.leaveTable rid).pending = s.pending := by
  cases hr : s.request? rid with
  | none => simp [State.leaveTable, hr]
  | some r =>
    have hfolded : (folded s r).pending = s.pending := by
      unfold folded
      split <;> simp
    simp [leaveTable_some hr, gaveUp, hfolded]

@[simp] theorem markStanding_pending (st : Standing) : (s.markStanding p rid st).pending = s.pending := rfl

@[simp] theorem breakChain_pending (n : Nat) : (s.breakChain n rid).pending = s.pending := by
  induction n generalizing s rid with
  | zero => rfl
  | succ n ih =>
    simp only [State.breakChain]
    split <;> simp [ih]

@[simp] theorem endBroken_pending : (s.endBroken r e body).pending = s.pending := by simp [State.endBroken]

@[simp] theorem foldEarly_pending : (s.foldEarly d).pending = s.pending := by
  refine foldl_pending (fun s rid => ?_) _
  split <;> simp

@[simp] theorem fanEnd_pending : (s.fanEnd rid e).pending = s.pending := by
  simp only [State.fanEnd]
  split <;> simp

@[simp] theorem dropLabelUpdate_pending : (s.dropLabelUpdate d).pending = s.pending := by
  simp only [State.dropLabelUpdate]
  split <;> simp

@[simp] theorem stopDrive_pending (except : Option Nat) : (s.stopDrive d except).pending = s.pending := by simp [State.stopDrive]

@[simp] theorem faultDrive_pending (k : FaultKind) (owner : Option Request) : (s.faultDrive d k owner).pending = s.pending := by
  simp [State.faultDrive]

/-! #### Drive-control requests, DONE endings and chains released (R23, R36, R40, R55, R152) -/

@[simp] theorem joinStartList_pending : (s.joinStartList d).pending = s.pending := by simp [State.joinStartList]

@[simp] theorem beginStart_pending : (s.beginStart d).1.pending = s.pending := by
  simp only [State.beginStart]
  split <;> simp

@[simp] theorem beginStop_pending : (s.beginStop rid d).1.pending = s.pending := by
  simp only [State.beginStop]
  split <;> simp

@[simp] theorem beginClear_pending : (s.beginClear rid d).1.pending = s.pending := by
  simp only [State.beginClear]
  split
  · rfl
  · split
    · split <;> simp
    · simp
    · simp
    · simp

@[simp] theorem beginSync_pending : (s.beginSync r).1.pending = s.pending := by
  simp only [State.beginSync]
  split <;> rfl

@[simp] theorem beginControl_pending : (s.beginControl r).1.pending = s.pending := by
  simp only [State.beginControl]
  split <;> simp

@[simp] theorem reportDone_pending : (s.reportDone r e body).pending = s.pending := by simp [State.reportDone]

@[simp] theorem releaseChain_pending (n : Nat) : (s.releaseChain n rid).pending = s.pending := by
  induction n generalizing s rid with
  | zero => rfl
  | succ n ih =>
    simp only [State.releaseChain]
    split
    · rfl
    · next y _ =>
      have hbegan : (((s.putRequest { y with state := .controlWait }).beginControl { y with state := .controlWait }).1).pending =
          s.pending := by simp
      split
      · simp [ih]
      · split
        · split <;> simp
        · split
          · next heq => rwa [heq] at hbegan
          · next heq =>
            rw [heq] at hbegan
            simpa [ih] using hbegan

@[simp] theorem releaseBehind_pending : (s.releaseBehind rid).pending = s.pending := releaseChain_pending ..
@[simp] theorem endDone_pending : (s.endDone r e body).pending = s.pending := by simp [State.endDone]

@[simp] theorem conclude_pending : (s.conclude rid e).pending = s.pending := by
  simp only [State.conclude]
  split <;> simp

@[simp] theorem concludeDone_pending : (s.concludeDone rid).pending = s.pending := by
  simp only [State.concludeDone]
  split <;> simp

@[simp] theorem endTogether_pending (rids : List Nat) : (s.endTogether rids).pending = s.pending := by simp [State.endTogether]

@[simp] theorem earlyReport_pending : (s.earlyReport rid).pending = s.pending := by
  simp only [State.earlyReport]
  split <;> simp

/-! #### The arm (R26 to R30, R40, R144) -/

@[simp] theorem arrive_pending : (s.arrive d rid).pending = s.pending := by
  simp only [State.arrive]
  split <;> simp

@[simp] theorem seekTo_pending (c : Nat) : (s.seekTo d rid c).pending = s.pending := by simp [State.seekTo]

@[simp] theorem recalibrateFor_pending (after : AfterHome) : (s.recalibrateFor d rid after).pending = s.pending := by
  simp [State.recalibrateFor]

@[simp] theorem aim_pending : (s.aim rid).pending = s.pending := by
  simp only [State.aim]
  split <;> simp

@[simp] theorem loadSeek_pending (c : Nat) : (s.loadSeek d c).pending = s.pending := by simp [State.loadSeek]
@[simp] theorem beginLoad_pending : (s.beginLoad d).pending = s.pending := rfl
@[simp] theorem endCancelled_pending : (s.endCancelled d).pending = s.pending := by simp [State.endCancelled]

@[simp] theorem onCylinderEvent_pending (settled : Nat) : (s.onCylinderEvent d settled).pending = s.pending := by
  simp only [State.onCylinderEvent]
  split
  · simp
  · split <;> simp

@[simp] theorem clearingDone_pending : (s.clearingDone d).pending = s.pending := by simp [State.clearingDone]

@[simp] theorem homeEvent_pending : (s.homeEvent d).pending = s.pending := by
  simp only [State.homeEvent]
  split
  · simp
  · split
    · simp
    · split
      · simp
      · split <;> simp

@[simp] theorem movementFails_pending (k : FaultKind) (after : AfterHome) :
    (s.movementFails d rid k after).pending = s.pending := by
  simp [State.movementFails]

@[simp] theorem seekExpiry_pending : (s.seekExpiry d).pending = s.pending := by
  simp only [State.seekExpiry]
  split <;> simp

@[simp] theorem clearingFails_pending : (s.clearingFails d).pending = s.pending := by simp [State.clearingFails]

@[simp] theorem recalibrateExpiry_pending : (s.recalibrateExpiry d).pending = s.pending := by
  simp only [State.recalibrateExpiry]
  split
  · simp
  · split <;> simp

/-! #### Halves (R101 to R103) -/

@[simp] theorem giveWanted_pending (ρ : Nat) : (s.giveWanted r ρ).pending = s.pending := rfl
@[simp] theorem putData_pending (before after : Request) : (s.putData before after).pending = s.pending := by simp [State.putData]
@[simp] theorem toggle_pending : (s.toggle r).pending = s.pending := by simp [State.toggle]

@[simp] theorem grantSegments_pending : (s.grantSegments r).pending = s.pending := by
  simp only [State.grantSegments]
  split <;> simp

@[simp] theorem withdrawWanted_pending : s.withdrawWanted.pending = s.pending := rfl

/-! #### Sparing (R118 to R127, R133, R134) -/

@[simp] theorem putOp_pending : (s.putOp rid op).pending = s.pending := by simp [State.putOp]
@[simp] theorem opLegNext_pending : (s.opLegNext rid op).pending = s.pending := by simp [State.opLegNext]
@[simp] theorem setSlot_pending (i : Nat) (x : Slot) : (s.setSlot i x).pending = s.pending := rfl
@[simp] theorem closeOp_pending : (s.closeOp rid).pending = s.pending := by simp [State.closeOp]

@[simp] theorem opEnds_pending : (s.opEnds rid e).pending = s.pending := by
  simp only [State.opEnds]
  split <;> simp

@[simp] theorem resume_pending (home : Nat) : (s.resume rid home).pending = s.pending := by
  simp only [State.resume]
  split
  · simp
  · split <;> simp

@[simp] theorem spareDone_pending : (s.spareDone rid op).pending = s.pending := by
  simp only [State.spareDone]
  split
  · rfl
  · split
    · split <;> simp
    · simp

@[simp] theorem opWrite_pending : (s.opWrite rid op).pending = s.pending := by simp [State.opWrite]

@[simp] theorem opReadEnd_pending : (s.opReadEnd rid op).pending = s.pending := by
  simp only [State.opReadEnd]
  split
  · simp
  · split
    · split
      · split <;> simp
      · simp
    · simp

@[simp] theorem beginOp_pending (slots : List Slot) : (s.beginOp rid op slots).pending = s.pending := by
  simp only [State.beginOp]
  split <;> simp

@[simp] theorem beginSparing_pending (home : Nat) (origin : Origin) (slots : List Slot) :
    (s.beginSparing rid home origin slots).pending = s.pending := by
  simp only [State.beginSparing]
  split
  · simp
  · split <;> simp

@[simp] theorem chooseSpare_pending : (s.chooseSpare r).pending = s.pending := by simp [State.chooseSpare]

@[simp] theorem chooseReturn_pending : (s.chooseReturn r).pending = s.pending := by
  simp only [State.chooseReturn]
  split <;> simp

@[simp] theorem autoSparing_pending : (s.autoSparing rid).pending = s.pending := by
  simp only [State.autoSparing]
  split <;> simp

@[simp] theorem askSparing_pending : (s.askSparing rid).pending = s.pending := by simp [State.askSparing]

@[simp] theorem attemptFails_pending : (s.attemptFails rid op).pending = s.pending := by
  simp only [State.attemptFails]
  split
  · rfl
  · split
    · split <;> simp
    · simp

@[simp] theorem returnCheckFails_pending : (s.returnCheckFails rid op).pending = s.pending := by simp [State.returnCheckFails]

@[simp] theorem returnChecked_pending : (s.returnChecked rid op).pending = s.pending := by
  simp only [State.returnChecked]
  split <;> simp

@[simp] theorem opLegEnd_pending : (s.opLegEnd rid op).pending = s.pending := by
  simp only [State.opLegEnd]
  split <;> simp

@[simp] theorem opProtected_pending : (s.opProtected rid op).pending = s.pending := by
  simp only [State.opProtected]
  split <;> simp

/-! #### Recovery (R128, R129, R138 to R146) -/

@[simp] theorem labelFails_pending : (s.labelFails rid).pending = s.pending := by
  simp only [State.labelFails]
  split <;> simp

@[simp] theorem labelAttemptFails_pending : (s.labelAttemptFails rid j).pending = s.pending := by simp [State.labelAttemptFails]

@[simp] theorem spentRetries_pending (d : Detail) : (s.spentRetries rid d).pending = s.pending := by
  simp only [State.spentRetries]
  split
  · rfl
  · split
    · simp
    · split <;> simp

@[simp] theorem seekCheckThen_pending (restart : Request → Request) : (s.seekCheckThen d rid restart).pending = s.pending := by
  simp only [State.seekCheckThen]
  split <;> simp

@[simp] theorem seekCheck_pending : (s.seekCheck d rid).pending = s.pending := by simp [State.seekCheck]

@[simp] theorem retry_pending : (s.retry d rid).pending = s.pending := by
  simp only [State.retry]
  split <;> simp

@[simp] theorem retryOr_pending (h : t.pending = s.pending) : (s.retryOr d rid t).pending = s.pending := by
  simp only [State.retryOr]
  split <;> simp [h]

@[simp] theorem recovered_pending (i track : Nat) : (s.recovered r i track).pending = s.pending := by
  simp only [State.recovered]
  split <;> simp

@[simp] theorem disagreement_pending (link : Option Nat) : (s.disagreement rid link).pending = s.pending := by
  simp only [State.disagreement]
  split
  · simp
  · split <;> simp

@[simp] theorem dataFails_pending : (s.dataFails d rid c).pending = s.pending := by
  simp only [State.dataFails]
  split
  · rfl
  · split <;> simp

@[simp] theorem labelBlockFails_pending : (s.labelBlockFails d rid j c).pending = s.pending := by
  simp only [State.labelBlockFails]
  split <;> simp

@[simp] theorem formatFails_pending (f : FormatJob) : (s.formatFails d rid f c).pending = s.pending := by
  simp only [State.formatFails]
  split
  · simp
  · split
    · simp
    · split <;> simp

@[simp] theorem opCheckFails_pending : (s.opCheckFails d rid op c).pending = s.pending := by
  simp only [State.opCheckFails]
  split <;> simp

/-! #### Claims and blocks (R93 to R99, R109 to R113) -/

theorem grantPath_pending (h : s.grantPath rid = some t) : t.pending = s.pending := by
  simp only [State.grantPath] at h
  repeat' split at h
  all_goals cases h <;> rfl

@[simp] theorem pathMiss_pending : (s.pathMiss rid).pending = s.pending := by
  simp only [State.pathMiss]
  split <;> simp

@[simp] theorem foundProtected_pending : (s.foundProtected rid).pending = s.pending := by
  simp only [State.foundProtected]
  split
  · simp
  · split <;> simp

@[simp] theorem claimPath_pending : (s.claimPath d rid l).pending = s.pending := by
  simp only [State.claimPath]
  split
  · simp
  · next hgranted => simp [grantPath_pending hgranted]

@[simp] theorem claim_pending : (s.claim d r).pending = s.pending := by simp [State.claim]

@[simp] theorem beginBlock_pending (n : Nat) : (s.beginBlock d rid n).pending = s.pending := by
  simp only [State.beginBlock]
  split <;> simp

@[simp] theorem releaseLeg_pending : (s.releaseLeg rid).pending = s.pending := by simp [State.releaseLeg]

@[simp] theorem nextLeg_pending (n : Nat) (old : Leg) : (s.nextLeg d rid n old).pending = s.pending := by
  simp only [State.nextLeg]
  split <;> simp

@[simp] theorem goOn_pending (n : Nat) (old : Leg) : (s.goOn d rid n old).pending = s.pending := by
  simp only [State.goOn]
  split
  · simp
  · split <;> simp

@[simp] theorem stopAt_pending : (s.stopAt rid e).pending = s.pending := by simp [State.stopAt]

@[simp] theorem readGood_pending (n : Nat) : (s.readGood d r n l b).pending = s.pending := by
  simp only [State.readGood]
  split <;> simp

@[simp] theorem doneGood_pending (n : Nat) : (s.doneGood d r n l).pending = s.pending := by
  simp only [State.doneGood]
  split
  · simp
  · split
    · split <;> simp
    · simp

@[simp] theorem pairWritten_pending (n : Nat) : (s.pairWritten d r n l).pending = s.pending := by
  simp only [State.pairWritten]
  split <;> simp

@[simp] theorem pairChecked_pending (n : Nat) : (s.pairChecked d r n l).pending = s.pending := by
  simp only [State.pairChecked]
  split
  · simp
  · split
    · simp
    · split <;> simp

@[simp] theorem mismatch_pending : (s.mismatch r).pending = s.pending := by simp [State.mismatch]

@[simp] theorem adopt_pending : (s.adopt r).pending = s.pending := by
  simp only [State.adopt]
  split <;> simp

@[simp] theorem blockFails_pending {k : State → State} (hk : ∀ u : State, (k u).pending = u.pending) :
    (s.blockFails r k).pending = s.pending := by
  simp only [State.blockFails]
  split <;> simp [hk]

@[simp] theorem writeSectorEnds_pending (n : Nat) : (s.writeSectorEnds d r n l found).pending = s.pending := by
  simp only [State.writeSectorEnds]
  split
  · simp
  · split <;> simp

@[simp] theorem readSectorEnds_pending (n : Nat) : (s.readSectorEnds d r n l found).pending = s.pending := by
  simp only [State.readSectorEnds]
  split
  · simp
  · split <;> simp

@[simp] theorem labelSectorEnds_pending (n : Nat) : (s.labelSectorEnds d r n l j found).pending = s.pending := by
  simp only [State.labelSectorEnds]
  split
  · split
    · simp
    · split <;> simp
  · split
    · simp
    · split <;> simp

@[simp] theorem formatGood_pending : (s.formatGood r).pending = s.pending := by
  simp only [State.formatGood]
  split <;> simp

@[simp] theorem formatSectorEnds_pending (n : Nat) (f : FormatJob) :
    (s.formatSectorEnds d r n l f found).pending = s.pending := by
  simp only [State.formatSectorEnds]
  split
  · split <;> simp
  · split
    · simp
    · split <;> simp

@[simp] theorem opReadSector_pending (n : Nat) : (s.opReadSector d r n l op found).pending = s.pending := by
  simp [State.opReadSector]

@[simp] theorem opWriteSector_pending (n : Nat) : (s.opWriteSector d r n l op found).pending = s.pending := by
  simp [State.opWriteSector]

@[simp] theorem opCheckSector_pending (n : Nat) : (s.opCheckSector d r n l op found).pending = s.pending := by
  simp only [State.opCheckSector]
  split <;> simp

@[simp] theorem sectorEnds_pending (n : Nat) : (s.sectorEnds d r n read).pending = s.pending := by
  simp only [State.sectorEnds]
  split
  · split <;> simp
  · split
    · simp
    · split <;> simp

@[simp] theorem ownerSector_pending (n : Nat) : (s.ownerSector d r n read).pending = s.pending := by
  simp only [State.ownerSector]
  split
  · simp
  · split <;> simp
  · split
    · split <;> simp
    · simp

/-! #### Loads and the sector event (R24, R25, R31, R145) -/

@[simp] theorem loadComplete_pending (label : Option LabelImage) : (s.loadComplete d label).pending = s.pending := by
  simp [State.loadComplete]

@[simp] theorem loadRecalibrate_pending : (s.loadRecalibrate d).pending = s.pending := rfl

@[simp] theorem loadFails_pending : (s.loadFails d c).pending = s.pending := by
  simp only [State.loadFails]
  split <;> simp

@[simp] theorem loadSector_pending (n : Nat) : (s.loadSector d n read).pending = s.pending := by
  simp only [State.loadSector]
  split
  · split <;> simp
  · simp

@[simp] theorem sectorEvent_pending (n : Nat) : (s.sectorEvent d n read).pending = s.pending := by
  simp only [State.sectorEvent]
  split
  · simp
  · split <;> simp
  · simp

/-! #### What follows in an event (R76 to R91, R118, R153) -/

@[simp] theorem countPasses_pending (chosen : Nat) : (s.countPasses d chosen).pending = s.pending := rfl
@[simp] theorem beginLabel_pending : (s.beginLabel r).pending = s.pending := by simp [State.beginLabel]

@[simp] theorem firstState_pending : (s.firstState r).pending = s.pending := by
  simp only [State.firstState]
  split <;> simp

@[simp] theorem decideArm_pending : (s.decideArm d r).pending = s.pending := by simp [State.decideArm]

theorem grantBuffer?_pending (h : s.grantBuffer? = some t) : t.pending = s.pending := by
  simp only [State.grantBuffer?] at h
  split at h
  · obtain rfl := Option.some.inj h
    simp
  · cases h

@[simp] theorem settleReports_pending (n : Nat) (os : SyncOutcomes) (ended : List Nat) :
    (s.settleReports n os ended).1.pending = s.pending := by
  induction n generalizing s os ended with
  | zero => rfl
  | succ n ih =>
    simp only [State.settleReports]
    split
    · rfl
    · split <;> simp [ih]

theorem settleSync?_pending {os os' : SyncOutcomes} (h : s.settleSync? os = some (t, os')) : t.pending = s.pending := by
  simp only [State.settleSync?] at h
  split at h
  · cases h
  · obtain ⟨rfl, _⟩ := Prod.mk.inj (Option.some.inj h)
    simp

@[simp] theorem beginStartOf_pending : (s.beginStartOf d).pending = s.pending := rfl

theorem settleStep_pending {os os' : SyncOutcomes} {q q' : TestPlan} (h : s.settleStep os q = some (t, os', q')) :
    t.pending = s.pending := by
  simp only [State.settleStep] at h
  split at h
  · next hgranted =>
    obtain ⟨rfl, _⟩ := Prod.mk.inj (Option.some.inj h)
    exact grantBuffer?_pending hgranted
  · split at h
    · next hsettled =>
      obtain ⟨rfl, _⟩ := Prod.mk.inj (Option.some.inj h)
      exact settleSync?_pending hsettled
    · split at h
      · obtain ⟨rfl, _⟩ := Prod.mk.inj (Option.some.inj h)
        exact decideArm_pending
      · obtain ⟨d, _, hstart⟩ := Option.map_eq_some_iff.1 h
        obtain ⟨rfl, _⟩ := Prod.mk.inj hstart
        exact beginStartOf_pending

@[simp] theorem settleBy_pending (n : Nat) (os : SyncOutcomes) : (s.settleBy n os q).pending = s.pending := by
  induction n generalizing s os q with
  | zero => rfl
  | succ n ih =>
    simp only [State.settleBy]
    split
    · next hstep => exact (ih ..).trans (settleStep_pending hstep)
    · rfl

@[simp] theorem settleWith_pending : (s.settleWith q).pending = s.pending := settleBy_pending ..
@[simp] theorem settle_pending : (s.settle t).pending = t.pending := settleWith_pending

@[simp] theorem testAfterJoin_pending : (s.testAfterJoin d).pending = s.pending := by
  simp only [State.testAfterJoin]
  split <;> simp [State.decideIn]

/-! #### The ports (R102 to R108, R178 to R182) -/

@[simp] theorem flush_pending : s.flush.pending = s.pending := by simp [State.flush]
@[simp] theorem close_pending : (s.close t).pending = t.pending := by simp [State.close]
@[simp] theorem answer_pending (r : Report) : (s.answer p r).pending = s.pending := by simp [State.answer]

@[simp] theorem portEnding_pending : (s.portEnding rid e).pending = s.pending := by
  simp only [State.portEnding]
  split <;> simp

@[simp] theorem frameErrorEnding_pending : (s.frameErrorEnding r).pending = s.pending := by simp [State.frameErrorEnding]
@[simp] theorem dataOutFor_pending (index : Nat) : (s.dataOutFor r index b).pending = s.pending := by simp [State.dataOutFor]

@[simp] theorem dataOutFrame_pending (tag : Octet) (index : Nat) : (s.dataOutFrame p tag index b).pending = s.pending := by
  simp only [State.dataOutFrame]
  split <;> simp

@[simp] theorem badFrameAt_pending (os : List Octet) : (s.badFrameAt p os).pending = s.pending := by
  simp only [State.badFrameAt]
  split
  · split <;> simp
  · simp

@[simp] theorem deliver_pending (index : Nat) : (s.deliver rid index).pending = s.pending := by
  simp only [State.deliver]
  split <;> simp

@[simp] theorem wantedSent_pending (w : WantedFrame) : (s.wantedSent w).pending = s.pending := by
  simp only [State.wantedSent]
  split <;> simp

@[simp] theorem waitExpiry_pending (one : Bool) : (s.waitExpiry r one).pending = s.pending := by
  simp only [State.waitExpiry]
  split <;> simp

@[simp] theorem readExpiry_pending : (s.readExpiry r).pending = s.pending := by
  simp only [State.readExpiry]
  split <;> simp

@[simp] theorem overrun_pending : (s.overrun p).pending = s.pending := rfl

/-! #### Arrivals (R44 to R56) -/

@[simp] theorem denialEffect_pending (x : Denial) : (s.denialEffect p f x).pending = s.pending := by
  simp only [State.denialEffect]
  split <;> simp

@[simp] theorem deny_pending (kindCode : Nat) (k : Option Kind) (x : Denial) : (s.deny p kindCode k f x).pending = s.pending := by
  simp [State.deny]

theorem arrival_pending (h : ∀ d o, (acc s d o).pending = s.pending) : (s.arrival p k f acc).pending = s.pending := by
  simp only [State.arrival]
  split
  · rfl
  · split
    · simp
    · split <;> simp [h]

@[simp] theorem mark_pending (member : Option Nat) (st : Standing) : (s.mark p f d member st).pending = s.pending := rfl
@[simp] theorem enter_pending : (s.enter p f r).pending = s.pending := rfl
@[simp] theorem noteClass_pending : (s.noteClass r).pending = s.pending := by simp [State.noteClass]
@[simp] theorem enqueue_pending : (s.enqueue p f r).pending = s.pending := by simp [State.enqueue]

@[simp] theorem enterControl_pending : (s.enterControl p f r).pending = s.pending := by
  have hbegan : (((s.enter p f { r with state := .controlWait }).beginControl { r with state := .controlWait }).1).pending =
      s.pending := by simp
  simp only [State.enterControl]
  split <;> next heq => simpa [heq] using hbegan

@[simp] theorem acceptEntry_pending (k : Kind) : (State.acceptEntry k p f s d o).pending = s.pending := by
  simp only [State.acceptEntry]
  split <;> simp

/-! #### Power and resets (R17 to R19, R71, R72, R184) -/

@[simp] theorem powerUp_pending (x : PowerOnSense) : (s.powerUp x).pending = s.pending := rfl
@[simp] theorem powerDown_pending : s.powerDown.pending = s.pending := by simp [State.powerDown]

@[simp] theorem freeWindows_pending : (s.freeWindows p).pending = s.pending := by
  refine foldl_pending (fun s i => ?_) _
  split <;> simp

@[simp] theorem abandon_pending : (s.abandon rid).pending = s.pending := by
  simp only [State.abandon]
  split <;> simp

@[simp] theorem dropReservations_pending : (s.dropReservations p).pending = s.pending := by
  simp only [State.dropReservations]
  rw [forDrives_pending fun _ _ => onDrive_pending _]
  simp

@[simp] theorem attentionAll_pending (r : AttnReason) : (s.attentionAll p r).pending = s.pending := by simp [State.attentionAll]
@[simp] theorem portReset_pending : (s.portReset p).pending = s.pending := by simp [State.portReset]
@[simp] theorem discardAll_pending : s.discardAll.pending = s.pending := rfl

@[simp] theorem stringReset_pending (cables : Vector SpindleSense 8) : (s.stringReset cables).pending = s.pending := by
  simp only [State.stringReset]
  rw [forPorts_pending fun _ _ => attentionAll_pending _, forPorts_pending fun _ _ => onPort_pending _]
  dsimp only
  rw [forDrives_pending fun _ _ => onDrive_pending _]
  simp

@[simp] theorem acceptStringReset_pending (cables : Vector SpindleSense 8) :
    (State.acceptStringReset p f cables s d o).pending = s.pending := by
  simp [State.acceptStringReset]

/-! #### Immediate requests -/

@[simp] theorem setOwner_pending : (s.setOwner d p).pending = s.pending := rfl
@[simp] theorem acceptReserve_pending : (Machine.acceptReserve p f s d o).pending = s.pending := by simp [Machine.acceptReserve]
@[simp] theorem acceptRelease_pending : (Machine.acceptRelease p f s d o).pending = s.pending := by simp [Machine.acceptRelease]

@[simp] theorem acceptSeize_pending : (Machine.acceptSeize p f s d o).pending = s.pending := by
  simp only [Machine.acceptSeize]
  split <;> simp

@[simp] theorem acceptReadStatus_pending : (Machine.acceptReadStatus p f s d o).pending = s.pending := by
  simp [Machine.acceptReadStatus]

@[simp] theorem acceptReadFault_pending : (Machine.acceptReadFault p f s d o).pending = s.pending := by
  simp only [Machine.acceptReadFault]
  split <;> simp

@[simp] theorem acceptReadMap_pending : (Machine.acceptReadMap p f s d o).pending = s.pending := by simp [Machine.acceptReadMap]

@[simp] theorem acceptReadIdentity_pending : (Machine.acceptReadIdentity p f s d o).pending = s.pending := by
  simp [Machine.acceptReadIdentity]

@[simp] theorem acceptCollect_pending : (Machine.acceptCollect p f s d o).pending = s.pending := by
  simp only [Machine.acceptCollect]
  split <;> simp

@[simp] theorem acceptTest_pending : (Machine.acceptTest p f s d o).pending = s.pending := by
  simp only [Machine.acceptTest]
  split <;> simp

@[simp] theorem setWindow_pending (w : Fin 4) (x : Option Window) : (s.setWindow w x).pending = s.pending := rfl

@[simp] theorem windowOwned_pending (k : Kind) (w : Fin 4) : (s.windowOwned p k f w).pending = s.pending := by
  simp [State.windowOwned]

@[simp] theorem acceptSetWindow_pending : (Machine.acceptSetWindow p f s d o).pending = s.pending := by
  simp only [Machine.acceptSetWindow]
  split <;> simp

@[simp] theorem acceptClearWindow_pending : (Machine.acceptClearWindow p f s d o).pending = s.pending := by
  simp only [Machine.acceptClearWindow]
  split <;> simp

@[simp] theorem acceptReadWindows_pending : (Machine.acceptReadWindows p f s d o).pending = s.pending := by
  simp [Machine.acceptReadWindows]

@[simp] theorem putSetting_pending : (State.putSetting p s x).pending = s.pending := by
  simp only [State.putSetting]
  split <;> simp

@[simp] theorem acceptSetSettings_pending : (Machine.acceptSetSettings p f s d o).pending = s.pending := by
  simp only [Machine.acceptSetSettings]
  split <;> simp

@[simp] theorem acceptReadSettings_pending : (Machine.acceptReadSettings p f s d o).pending = s.pending := by
  simp [Machine.acceptReadSettings]

@[simp] theorem pendCancel_pending : (s.pendCancel r).pending = s.pending := by simp [State.pendCancel]

@[simp] theorem cancelTarget_pending : (s.cancelTarget r).pending = s.pending := by
  simp only [State.cancelTarget]
  split <;> simp

@[simp] theorem acceptCancel_pending : (Machine.acceptCancel p f s d o).pending = s.pending := by
  simp only [Machine.acceptCancel]
  split
  · split <;> simp
  · simp

/-! #### Spindles and packs (R34 to R41) -/

@[simp] theorem comesToRest_pending : (s.comesToRest d).pending = s.pending := by simp [State.comesToRest]
@[simp] theorem cutClearing_pending : (s.cutClearing d).pending = s.pending := by simp [State.cutClearing]

@[simp] theorem opened_pending : (s.opened d).pending = s.pending := by
  simp only [State.opened]
  split <;> simp

@[simp] theorem packGone_pending : (s.packGone d).pending = s.pending := rfl

@[simp] theorem faultIfRecording_pending : (s.faultIfRecording d).pending = s.pending := by
  simp only [State.faultIfRecording]
  split <;> simp

end

/-! ### Steps and the queue -/

section
variable {s t u : State} {p : Port} {k : Kind} {f : RequestFrame} {acc : State → Drive → Operands → State}

/-- A command that goes through the power gate leaves the queue where its effect does. -/
theorem pending_of_live (ht : t.pending = s.pending) (he : s.live t = .next u) : u.pending = s.pending := by
  obtain rfl := Host.Outcome.next.inj he
  simp [ht]

/-- A request leaves the queue, taken or turned away, where what carries it out does. -/
theorem pending_of_arrival (hacc : ∀ d o, (acc s d o).pending = s.pending) (he : s.live (s.arrival p k f acc) = .next u) :
    u.pending = s.pending := pending_of_live (arrival_pending hacc) he

end

/-- Settles O3: a command's effect is made of operations that each leave the queue. -/
theorem execKeepsQueue : Obligations.ExecKeepsQueue := by
  intro c s t he
  cases c with
  | powerOn x =>
    obtain rfl := Host.Outcome.next.inj he
    exact settle_pending
  | readBlocks p f | writeBlocks p f | writeAndCheck p f | checkBlocks p f | position p f | recalibrate p f | spareTrack p f
  | returnAlternate p f | formatTrack p f | writeLabel p f | startDrive p f | stopDrive p f | clearFault p f | synchronize p f =>
    exact pending_of_arrival (fun _ _ => acceptEntry_pending _) he
  | reserve p f => exact pending_of_arrival (fun _ _ => acceptReserve_pending) he
  | release p f => exact pending_of_arrival (fun _ _ => acceptRelease_pending) he
  | seize p f => exact pending_of_arrival (fun _ _ => acceptSeize_pending) he
  | readStatus p f => exact pending_of_arrival (fun _ _ => acceptReadStatus_pending) he
  | readFaultRecord p f => exact pending_of_arrival (fun _ _ => acceptReadFault_pending) he
  | readSpareMap p f => exact pending_of_arrival (fun _ _ => acceptReadMap_pending) he
  | collectNotices p f => exact pending_of_arrival (fun _ _ => acceptCollect_pending) he
  | testNotice p f => exact pending_of_arrival (fun _ _ => acceptTest_pending) he
  | cancel p f => exact pending_of_arrival (fun _ _ => acceptCancel_pending) he
  | setWindow p f => exact pending_of_arrival (fun _ _ => acceptSetWindow_pending) he
  | clearWindow p f => exact pending_of_arrival (fun _ _ => acceptClearWindow_pending) he
  | readWindows p f => exact pending_of_arrival (fun _ _ => acceptReadWindows_pending) he
  | setSettings p f => exact pending_of_arrival (fun _ _ => acceptSetSettings_pending) he
  | readSettings p f => exact pending_of_arrival (fun _ _ => acceptReadSettings_pending) he
  | readIdentity p f => exact pending_of_arrival (fun _ _ => acceptReadIdentity_pending) he
  | stringReset p f cables => exact pending_of_arrival (fun _ _ => acceptStringReset_pending _) he
  | dataInSent p | dataWantedSent p | reportSent p | dataWaitExpiry p tag half | readTimerExpiry p tag =>
    refine pending_of_live ?_ he
    split <;> simp
  | badFrame p octets | dataOut p tag index block | linkReset p | linkSignalLoss p | linkSignalAppears p | holdLineChange p raised
  | spindleSensed d sense | atSpeed d | spinTimeout d | startGapExpiry | atRest d | onCylinder d settled | seekTimerExpiry d
  | homeEvent d | recalibrateTimerExpiry d | sectorEvent d n read | doorOpened d | packRemoved d | doorClosed d
  | packSeated d pack | writeFaultRaised d | writeFaultDropped d | writeProtectChange d isProtected | powerLoss
  | kindInvalidRequest p code f =>
    refine pending_of_live ?_ he
    simp

/-- Settles O1: the step looks at the queue alone to choose between a command and the clock. -/
theorem stepRunsFront : Obligations.StepRunsFront := by
  intro c rest s hfront
  simp only [step, hfront]

end Sys2Proof.Proofs
